-- ==== Sys2Proof/Word.lean ====
section
/-!
DEFINITION. The word types of CORE. One name for each width the spec gives to a thing that is
bits on wires: bytes (00_scope.md R9), the request word (30_encoding.md R30), the response word
(R31) and the two 64-bit data buses (20_memory.md R21).
-/

namespace Sys2Proof

/-- A byte of a byte sequence (00_scope.md R9). -/
abbrev Byte := BitVec 8

/-- The packed request word `REQ`, 71 bits (30_encoding.md R30). -/
abbrev ReqWord := BitVec 71

/-- The packed response word `RSP`, 70 bits (30_encoding.md R31). -/
abbrev RspWord := BitVec 70

/-- The length field `in_len` or `out_len`, 4 bits (30_encoding.md R30, R31). -/
abbrev Len := BitVec 4

/-- The data bus `in_data` or `out_data`, 64 bits: eight byte lanes (20_memory.md R21). -/
abbrev Data := BitVec 64

/-- A binary32 number as its bit pattern (40_data_formats.md R51), or a legacy single pattern
`word(B)` (R55): both are 32 bits. -/
abbrev Bits32 := BitVec 32

/-- A binary64 number as its bit pattern (40_data_formats.md R52), or a legacy double pattern
`word(B)` (R56): both are 64 bits. -/
abbrev Bits64 := BitVec 64

end Sys2Proof
end

