-- ==== Sys2Proof/Config.lean ====
section
/-!
DEFINITION. The five parameters of an instance of CORE (00_scope.md R8). The spec makes them
arguments of the model: they are fixed when the instance is built and no operation changes them
(10_state.md R14, R19; 70_reset_and_hazards.md R142). State holds them as plain data, so that a
statement about every state is a statement for every value of the parameters
(notes/assumptions/1.md).
-/

namespace Sys2Proof

/-- `SGL_DEC_L1_POLICY` (00_scope.md R8): what DECS returns for a legacy exponent field of 1,
where the host exponent would be -1 (40_data_formats.md R67). -/
inductive SglDecL1Policy where
  | wrap   -- the 8-bit host exponent field takes (1 - 2) mod 2^8
  | zero   -- the host zero of the pattern's sign
deriving DecidableEq, Repr

/-- The parameters of 00_scope.md R8. -/
structure Params where
  /-- `NAN_SIGN`: the sign bit of the legacy pattern ENCS and ENCD emit for a NaN
  (40_data_formats.md R59). -/
  nanSign : BitVec 1
  /-- `HOST_QNAN32`: the binary32 value DECS returns for a legacy NaN. -/
  hostQnan32 : Bits32
  /-- `HOST_QNAN64`: the binary64 value DECD returns for a legacy NaN. -/
  hostQnan64 : Bits64
  /-- `SGL_DEC_L1_POLICY`. -/
  sglDecL1 : SglDecL1Policy
  /-- `DBL_UNDERFLOW_AT_L0`: whether ENCD flushes a value whose shifted exponent is exactly 0
  (40_data_formats.md R66). -/
  dblUnderflowAtL0 : Bool
deriving DecidableEq, Repr

/-- The default of every parameter, the column "default" of 00_scope.md R8. -/
def Params.defaults : Params where
  nanSign := 0#1
  hostQnan32 := 0x7FC00000#32
  hostQnan64 := 0x7FF8000000000000#64
  sglDecL1 := .wrap
  dblUnderflowAtL0 := true

end Sys2Proof
end

