-- ==== Sys2Proof/Machine/Formats.lean ====
section
/-!
DEFINITION. The data formats of 40_data_formats.md, bit by bit: fields of the host numbers (R51,
R52) and of the legacy patterns (R55, R56), their assembly, the classes of both (R53, R62), the
special patterns (R57 to R59) and the constants (R60). All positions in a legacy pattern are
positions in `word(B)` (20_memory.md R20).
-/

namespace Sys2Proof.Machine

/-! ## Host numbers -/

/-- `s` of a binary32 pattern, bit 31 (R51). -/
def sign32 (h : Bits32) : BitVec 1 := h.extractLsb' 31 1

/-- `e` of a binary32 pattern, bits 30:23 (R51). -/
def exp32 (h : Bits32) : BitVec 8 := h.extractLsb' 23 8

/-- `m` of a binary32 pattern, bits 22:0 (R51). -/
def mant32 (h : Bits32) : BitVec 23 := h.extractLsb' 0 23

/-- The binary32 pattern with these fields (R51). -/
def pack32 (s : BitVec 1) (e : BitVec 8) (m : BitVec 23) : Bits32 := s ++ e ++ m

/-- `s` of a binary64 pattern, bit 63 (R52). -/
def sign64 (h : Bits64) : BitVec 1 := h.extractLsb' 63 1

/-- `e` of a binary64 pattern, bits 62:52 (R52). -/
def exp64 (h : Bits64) : BitVec 11 := h.extractLsb' 52 11

/-- `m` of a binary64 pattern, bits 51:0 (R52). -/
def mant64 (h : Bits64) : BitVec 52 := h.extractLsb' 0 52

/-- The binary64 pattern with these fields (R52). -/
def pack64 (s : BitVec 1) (e : BitVec 11) (m : BitVec 52) : Bits64 := s ++ e ++ m

/-- The classes of a host floating-point pattern (R53). -/
inductive HostClass where
  | nan | infinity | zero | subnormal | normal
deriving DecidableEq, Repr

/-- The class of a binary32 pattern, `EMAX = 255` (R53). -/
def class32 (h : Bits32) : HostClass :=
  if exp32 h = 255#8 then (if mant32 h = 0#23 then .infinity else .nan)
  else if exp32 h = 0#8 then (if mant32 h = 0#23 then .zero else .subnormal)
  else .normal

/-- The class of a binary64 pattern, `EMAX = 2047` (R53). -/
def class64 (h : Bits64) : HostClass :=
  if exp64 h = 2047#11 then (if mant64 h = 0#52 then .infinity else .nan)
  else if exp64 h = 0#11 then (if mant64 h = 0#52 then .zero else .subnormal)
  else .normal

/-- The binary32 infinity of a sign: exponent all ones, mantissa 0 (R53). -/
def inf32 (s : BitVec 1) : Bits32 := pack32 s 255#8 0#23

/-- The binary64 infinity of a sign (R53). -/
def inf64 (s : BitVec 1) : Bits64 := pack64 s 2047#11 0#52

/-- The binary32 zero of a sign (R53). -/
def hostZero32 (s : BitVec 1) : Bits32 := pack32 s 0#8 0#23

/-- The binary64 zero of a sign (R53). -/
def hostZero64 (s : BitVec 1) : Bits64 := pack64 s 0#11 0#52

/-! ## Legacy patterns -/

/-- `L` of a legacy single pattern, bits 31:24 (R55). -/
def singleL (w : Bits32) : BitVec 8 := w.extractLsb' 24 8

/-- `S` of a legacy single pattern, bit 23 (R55). -/
def singleS (w : Bits32) : BitVec 1 := w.extractLsb' 23 1

/-- `M` of a legacy single pattern, bits 22:0 (R55). -/
def singleM (w : Bits32) : BitVec 23 := w.extractLsb' 0 23

/-- The legacy single pattern with these fields, the exponent on top and the sign below it
(R55). -/
def packSingle (l : BitVec 8) (s : BitVec 1) (m : BitVec 23) : Bits32 := l ++ s ++ m

/-- `L` of a legacy double pattern, bits 63:56 (R56). -/
def doubleL (w : Bits64) : BitVec 8 := w.extractLsb' 56 8

/-- `S` of a legacy double pattern, bit 55 (R56). -/
def doubleS (w : Bits64) : BitVec 1 := w.extractLsb' 55 1

/-- `F` of a legacy double pattern, bits 54:0: the whole mantissa field with its padding (R56). -/
def doubleF (w : Bits64) : BitVec 55 := w.extractLsb' 0 55

/-- The legacy double pattern with these fields (R56). -/
def packDouble (l : BitVec 8) (s : BitVec 1) (f : BitVec 55) : Bits64 := l ++ s ++ f

/-- A host mantissa as it is stored in the 55-bit field, `F = m << 3` (R56). -/
def storeMantissa (m : BitVec 52) : BitVec 55 := m ++ 0#3

/-- The host mantissa read back from the 55-bit field, `m = F >> 3`, truncated and never rounded
(R56, R68). -/
def loadMantissa (f : BitVec 55) : BitVec 52 := f.extractLsb' 3 52

/-- The classes of a legacy floating-point pattern as the decoders see it (R62). -/
inductive LegacyClass where
  | nan | infinity | zero | finite
deriving DecidableEq, Repr

/-- The class of a legacy single pattern, tested in the order of R62. -/
def classSingle (w : Bits32) : LegacyClass :=
  if singleL w = 0xFF#8 ∧ singleM w = 0#23 then .nan
  else if singleL w = 0xFF#8 then .infinity
  else if singleL w = 0#8 then .zero
  else .finite

/-- The class of a legacy double pattern, tested in the order of R62; the mantissa test is on the
whole 55-bit field, padding included. -/
def classDouble (w : Bits64) : LegacyClass :=
  if doubleL w = 0xFF#8 ∧ doubleF w = 0#55 then .nan
  else if doubleL w = 0xFF#8 then .infinity
  else if doubleL w = 0#8 then .zero
  else .finite

/-! ## Special patterns -/

/-- `zero_single(s)` (R57). -/
def zeroSingle (s : BitVec 1) : Bits32 := packSingle 0#8 s 0#23

/-- `zero_double(s)` (R57). -/
def zeroDouble (s : BitVec 1) : Bits64 := packDouble 0#8 s 0#55

/-- `ovf_single(s)`: the overflow pattern, which is also the legacy infinity (R58). -/
def ovfSingle (s : BitVec 1) : Bits32 := packSingle 0xFF#8 s (BitVec.allOnes 23)

/-- `ovf_double(s)`: every mantissa field bit is one, the three padding bits too (R58). -/
def ovfDouble (s : BitVec 1) : Bits64 := packDouble 0xFF#8 s (BitVec.allOnes 55)

/-- `nan_single`: the one canonical legacy NaN of an instance (R59). -/
def nanSingle (p : Params) : Bits32 := packSingle 0xFF#8 p.nanSign 0#23

/-- `nan_double` (R59). -/
def nanDouble (p : Params) : Bits64 := packDouble 0xFF#8 p.nanSign 0#55

/-! ## Constants -/

/-- The bias of binary32 (R51, R60). -/
def hostBias32 : Int := 127

/-- The bias of binary64 (R52, R60). -/
def hostBias64 : Int := 1023

/-- The legacy bias of both legacy formats (R60). -/
def legacyBias : Int := 128

/-- `EXP_BIAS_OFFSET` of the single codec (R60). -/
def offSingle : Int := 2

/-- `EXP_BIAS_OFFSET` of the double codec (R60). -/
def offDouble : Int := -894

/-- `LMAX`: the largest legacy exponent of a finite value (R60). -/
def lMax : Int := 254

end Sys2Proof.Machine
end

