-- ==== Sys2Proof/Syntax.lean ====
section
/-!
DEFINITION. The instructions of CORE: its six operations (00_scope.md R2) and the two reserved
operation selects (30_encoding.md R34), one constructor for each row of spec/opcode_table.json.
Each carries the two other fields of the request whole, `in_len` and `in_data`
(30_encoding.md R30); which of their bits matter is the meaning's affair (R35, R36).
-/

namespace Sys2Proof

/-- One request, its operation select turned into a constructor (30_encoding.md R33). -/
inductive Instr where
  /-- ENCI, encode-integer, `op = 0` (41_integer_codec.md R70). -/
  | enci (inLen : Len) (inData : Data)
  /-- ENCS, encode-single, `op = 1` (42_single_codec.md R80). -/
  | encs (inLen : Len) (inData : Data)
  /-- ENCD, encode-double, `op = 2` (43_double_codec.md R100). -/
  | encd (inLen : Len) (inData : Data)
  /-- OP3, reserved, `op = 3` (30_encoding.md R34). -/
  | op3 (inLen : Len) (inData : Data)
  /-- DECI, decode-integer, `op = 4` (41_integer_codec.md R71). -/
  | deci (inLen : Len) (inData : Data)
  /-- DECS, decode-single, `op = 5` (42_single_codec.md R81). -/
  | decs (inLen : Len) (inData : Data)
  /-- DECD, decode-double, `op = 6` (43_double_codec.md R101). -/
  | decd (inLen : Len) (inData : Data)
  /-- OP7, reserved, `op = 7` (30_encoding.md R34). -/
  | op7 (inLen : Len) (inData : Data)
deriving DecidableEq, Repr

end Sys2Proof
end

