-- ==== Sys2Proof/WellFormed.lean ====
section
/-!
DEFINITION. What the types do not say by themselves. A parameter set must give NaNs where
00_scope.md R8 asks for NaNs. An instruction needs no check: every value of `in_len` and every
value of `in_data` is legal for every operation select (30_encoding.md R34), so each term of
`Instr` is well formed; what R34 sets apart is whether the select is one of the six operations or
a reserved one, and `Instr.isOperation` says that.
-/

namespace Sys2Proof

/-- The parameters are ones an instance may have: `HOST_QNAN32` is a binary32 NaN and
`HOST_QNAN64` a binary64 NaN (00_scope.md R8). -/
def Params.wf (p : Params) : Bool :=
  Machine.class32 p.hostQnan32 == .nan && Machine.class64 p.hostQnan64 == .nan

/-- The request asks for one of the six operations of 00_scope.md R2, not for a reserved select
(30_encoding.md R34). -/
def Instr.isOperation : Instr → Bool
  | .enci _ _ => true
  | .encs _ _ => true
  | .encd _ _ => true
  | .op3 _ _ => false
  | .deci _ _ => true
  | .decs _ _ => true
  | .decd _ _ => true
  | .op7 _ _ => false

end Sys2Proof
end

