-- ==== Sys2Proof/Decode.lean ====
section
/-!
DEFINITION. From the 71-bit request word `REQ = {op, in_len, in_data}` (30_encoding.md R30) to an
instruction and back. The select is bits 70:68 and nothing else takes part in it (R33); every one
of the `2^71` words is a request (R33, R34), so `decode` is total. The only thing that is no
request is a number of more than 71 bits, which `decodeWord` rejects by name.
-/

namespace Sys2Proof

/-- `req.op`, REQ bits 70:68 (30_encoding.md R30). -/
def reqOp (w : ReqWord) : BitVec 3 := w.extractLsb' 68 3

/-- `req.in_len`, REQ bits 67:64 (30_encoding.md R30). -/
def reqInLen (w : ReqWord) : Len := w.extractLsb' 64 4

/-- `req.in_data`, REQ bits 63:0 (30_encoding.md R30). -/
def reqInData (w : ReqWord) : Data := w.extractLsb' 0 64

/-- `REQ = {op[2:0], in_len[3:0], in_data[63:0]}` (30_encoding.md R30). -/
def packReq (op : BitVec 3) (inLen : Len) (inData : Data) : ReqWord := op ++ inLen ++ inData

/-- The operation map of 30_encoding.md R33. -/
def decode (w : ReqWord) : Instr :=
  match (reqOp w).toFin with
  | 0 => .enci (reqInLen w) (reqInData w)
  | 1 => .encs (reqInLen w) (reqInData w)
  | 2 => .encd (reqInLen w) (reqInData w)
  | 3 => .op3 (reqInLen w) (reqInData w)
  | 4 => .deci (reqInLen w) (reqInData w)
  | 5 => .decs (reqInLen w) (reqInData w)
  | 6 => .decd (reqInLen w) (reqInData w)
  | 7 => .op7 (reqInLen w) (reqInData w)

/-- Why a number is no request. -/
inductive DecodeError where
  /-- It has a bit above bit 70; a request is 71 bits (30_encoding.md R30, R38). Safe: the number
  stands for nothing the spec gives a meaning. -/
  | widerThanRequest
deriving DecidableEq, Repr

/-- Decode any number as a request word. -/
def decodeWord (n : Nat) : Except DecodeError Instr :=
  if n < 2 ^ 71 then .ok (decode (BitVec.ofNat 71 n)) else .error .widerThanRequest

/-- The decoder as the host of the pipeline asks it: `w` holds the instruction's low `nbits` bits,
every bit above is 0. -/
def decodeTableWord (nbits w : Nat) : Option Instr :=
  match decodeWord (w % 2 ^ nbits) with
  | .ok i => some i
  | .error _ => none

/-- The request word of an instruction (30_encoding.md R30, R33). -/
def encode : Instr → ReqWord
  | .enci inLen inData => packReq 0#3 inLen inData
  | .encs inLen inData => packReq 1#3 inLen inData
  | .encd inLen inData => packReq 2#3 inLen inData
  | .op3 inLen inData => packReq 3#3 inLen inData
  | .deci inLen inData => packReq 4#3 inLen inData
  | .decs inLen inData => packReq 5#3 inLen inData
  | .decd inLen inData => packReq 6#3 inLen inData
  | .op7 inLen inData => packReq 7#3 inLen inData

end Sys2Proof
end

