-- ==== Sys2Proof/Machine/State.lean ====
section
/-!
DEFINITION. The state of the machine. CORE keeps no state of its own (10_state.md R10 to R18):
what is held here is what stands around one evaluation of it, the parameters of the instance, the
requests the host presents and the responses that have been produced. No operation writes the
parameters and none reads the responses.
-/

namespace Sys2Proof.Machine

/-- The outcome code of a response (30_encoding.md R32). There is no fourth value: `0b11` is never
produced. -/
inductive Status where
  | ok
  | lengthError
  | illegalOp
deriving DecidableEq, Repr

/-- The two errors (60_exceptions.md R120): LengthError (R121) and IllegalOp (R122). -/
inductive ErrorKind where
  | lengthError
  | illegalOp
deriving DecidableEq, Repr

/-- One response (30_encoding.md R31). -/
structure Response where
  /-- `rsp.status`, 2 bits on the wire (`Status.code`). -/
  status : Status
  /-- `rsp.out_len`: the number of meaningful bytes of `outData`, 0 on an error. -/
  outLen : Len
  /-- `rsp.out_data`. -/
  outData : Data
deriving DecidableEq, Repr

/-- The machine. -/
structure State where
  /-- The parameters of the instance (00_scope.md R8). -/
  params : Params
  /-- The request words the host presents, in its order; the head stands on the request wires now
  (30_encoding.md R30, R40; 70_reset_and_hazards.md R147). The model's own field: an input. -/
  requests : List ReqWord
  /-- The responses produced so far, oldest first (30_encoding.md R31; 70_reset_and_hazards.md
  R147). The model's own field: an output. -/
  responses : List Response
deriving DecidableEq, Repr

/-- Why a step stops with a fault. -/
inductive Fault where
  /-- Raised by `step` alone, when no request is presented: the run is over
  (70_reset_and_hazards.md R147) or the request wires are not driven (R141;
  93_implementation_defined.md U17). Safe: the spec has no operation there. -/
  | noRequest
deriving DecidableEq, Repr

/-- Why a step is refused. -/
inductive Refusal where
  /-- The instruction has no meaning in this model. Raised by no arm of `exec`: every instruction
  has its meaning. Safe: the model would stop. -/
  | notModelled (mnemonic : String)
deriving DecidableEq, Repr

/-- What a step or a meaning answers. -/
abbrev Out := Host.Outcome State Fault Refusal

/-- The machine right after reset: CORE is at once in its only condition, ready for a request
(70_reset_and_hazards.md R140), with the default parameters of 00_scope.md R8. That no request is
presented and no response produced yet is the model's choice (notes/assumptions/2.md). -/
def State.reset : State where
  params := .defaults
  requests := []
  responses := []

end Sys2Proof.Machine
end

