-- ==== Sys2Proof/Machine/Ops.lean ====
section
/-!
DEFINITION. The operations every meaning is made of: taking a request off the request wires,
putting a response on the response wires, answering OK, and raising an error. CORE has neither
registers nor memory (10_state.md R11, R16), so there is nothing else to read or write. Also the
two views of a byte sequence, as a list of bytes and as a word (20_memory.md R20, R21).
-/

namespace Sys2Proof.Machine

/-! ## Requests and responses -/

/-- The request that stands on the request wires, and the machine with the host's list moved past
it (30_encoding.md R40); nothing where no request is presented. -/
def State.fetch (s : State) : Option (ReqWord × State) :=
  match s.requests with
  | [] => none
  | w :: rest => some (w, { s with requests := rest })

/-- Put one request on the request wires, in place of the one that stands there. -/
def State.present (s : State) (w : ReqWord) : State := { s with requests := w :: s.requests.tail }

/-- Produce one response; it is the whole effect of an operation (70_reset_and_hazards.md R147). -/
def State.emit (s : State) (r : Response) : State := { s with responses := s.responses ++ [r] }

/-- `return OK(n, v)` (00_scope.md R9; 30_encoding.md R37). -/
def okResponse (n : Len) (v : Data) : Response where
  status := .ok
  outLen := n
  outData := v

/-- The status code an error is reported with (60_exceptions.md R120). -/
def ErrorKind.status : ErrorKind → Status
  | .lengthError => .lengthError
  | .illegalOp => .illegalOp

/-- Raising an error, `raise LengthError` and `raise IllegalOp` (00_scope.md R9; 60_exceptions.md
R121, R122). This is CORE's whole exception mechanism: the response carries the status, a zero
length and zero data; nothing is saved, no mode changes, no control moves (R125), and since
nothing is entered there is no return from it (R126). -/
def raise (e : ErrorKind) : Response where
  status := e.status
  outLen := 0#4
  outData := 0#64

/-- Answer a request: the machine goes on with the response produced (30_encoding.md R31). -/
def answer (r : Response) (s : State) : Out := .next (s.emit r)

/-! ## Byte sequences -/

/-- `word(B)` for a byte sequence of any length, little-endian (20_memory.md R20). -/
def wordOf : List Byte → Nat
  | [] => 0
  | b :: bs => b.toNat + 256 * wordOf bs

/-- `bytes_n(w)` (20_memory.md R20). -/
def bytesOf : Nat → Nat → List Byte
  | 0, _ => []
  | n + 1, w => BitVec.ofNat 8 w :: bytesOf n (w / 256)

/-- Byte lane `i` of a data bus, bits `8i+7:8i` (20_memory.md R21). -/
def lane (d : Data) (i : Nat) : Byte := d.extractLsb' (8 * i) 8

/-- The byte sequence a response carries (30_encoding.md R37): `out_len` bytes of `out_data`. -/
def Response.bytes (r : Response) : List Byte := bytesOf r.outLen.toNat r.outData.toNat

end Sys2Proof.Machine
end

