-- ==== Sys2Proof/Machine/Operands.lean ====
section
/-!
DEFINITION. Operand and result assembly (30_encoding.md R35 to R37). An encode takes the low bits
of `in_data` and ignores `in_len`; a decode compares `in_len` with its width first and looks at no
bit of `in_data` when they differ.
-/

namespace Sys2Proof.Machine

/-- The int16 operand of ENCI and the two lanes DECI reads, `in_data[15:0]` (R35, R36). -/
def low16 (d : Data) : BitVec 16 := d.extractLsb' 0 16

/-- The binary32 operand of ENCS and the four lanes DECS reads, `in_data[31:0]` (R35, R36). -/
def low32 (d : Data) : Bits32 := d.extractLsb' 0 32

/-- The binary64 operand of ENCD and the eight lanes DECD reads, `in_data[63:0]` (R35, R36). -/
def low64 (d : Data) : Bits64 := d

/-- A 16-bit result on the bus, `zext_64`: DECI's too is not sign-extended (R37). -/
def zext16 (v : BitVec 16) : Data := v.setWidth 64

/-- A 32-bit result on the bus, `zext_64` (R37). -/
def zext32 (v : Bits32) : Data := v.setWidth 64

/-- The length check of a decode of the given width: any other length is refused with LengthError,
never truncated and never padded (20_memory.md R22; 60_exceptions.md R121, R124). -/
def checkLength (width inLen : Len) (result : Response) : Response :=
  if inLen = width then result else raise .lengthError

end Sys2Proof.Machine
end

