-- ==== Sys2Proof/Machine/Double.lean ====
section
/-!
DEFINITION. legacy_double_codec (43_double_codec.md): ENCD and DECD. Beside other constants it has
the 3-bit mantissa shift and the flush of too-small values to zero, which the single codec has not
(R110).
-/

namespace Sys2Proof.Machine

/-- `underflow(L)` of R100: whether a shifted exponent is flushed to zero, by the instance's
parameter at exactly 0 (40_data_formats.md R66). -/
def underflow (p : Params) (l : Int) : Bool :=
  if p.dblUnderflowAtL0 then decide (l ≤ 0) else decide (l < 0)

/-- The legacy pattern ENCD emits (R100): one chain of tests, the first that holds decides. -/
def encdPattern (p : Params) (h : Bits64) : Bits64 :=
  let l : Int := (exp64 h).toNat + offDouble
  if exp64 h = 2047#11 ∧ mant64 h ≠ 0#52 then nanDouble p
  else if l > lMax then ovfDouble (sign64 h)
  else if (exp64 h = 0#11 ∧ mant64 h = 0#52) ∨ underflow p l then zeroDouble (sign64 h)
  else packDouble (BitVec.ofInt 8 l) (sign64 h) (storeMantissa (mant64 h))

/-- The binary64 pattern DECD returns (R101), by the classes of 40_data_formats.md R62 in order;
the NaN test is on all 55 bits of the mantissa field. -/
def decdPattern (p : Params) (w : Bits64) : Bits64 :=
  if doubleL w = 0xFF#8 then
    (if doubleF w = 0#55 then p.hostQnan64 else inf64 (doubleS w))
  else if doubleL w = 0#8 then hostZero64 (doubleS w)
  else pack64 (doubleS w) (BitVec.ofInt 11 ((doubleL w).toNat - offDouble))
    (loadMantissa (doubleF w))

/-- ENCD of a binary64 (R100). -/
def encd (p : Params) (h : Bits64) : Response := okResponse 8#4 (encdPattern p h)

/-- DECD of a presented byte sequence (R101). -/
def decd (p : Params) (inLen : Len) (inData : Data) : Response :=
  checkLength 8#4 inLen (okResponse 8#4 (decdPattern p (low64 inData)))

/-- ENCD (R100); `in_len` is ignored (30_encoding.md R35). -/
def execEncd (_inLen : Len) (inData : Data) (s : State) : Out :=
  answer (encd s.params (low64 inData)) s

/-- DECD (R101). -/
def execDecd (inLen : Len) (inData : Data) (s : State) : Out :=
  answer (decd s.params inLen inData) s

end Sys2Proof.Machine
end

