-- ==== Sys2Proof/Machine/Integer.lean ====
section
/-!
DEFINITION. integer_codec (41_integer_codec.md): ENCI and DECI. Raw two's-complement bits, no
transformation (40_data_formats.md R54); nothing is shared with the floating-point codecs (R73).
-/

namespace Sys2Proof.Machine

/-- ENCI of an int16 (R70): the bytes of the pattern, low byte first, which on the bus is the
pattern itself. -/
def enci (v : BitVec 16) : Response := okResponse 2#4 (zext16 v)

/-- DECI of a presented byte sequence (R71). -/
def deci (inLen : Len) (inData : Data) : Response :=
  checkLength 2#4 inLen (okResponse 2#4 (zext16 (low16 inData)))

/-- ENCI (R70); `in_len` and `in_data[63:16]` are ignored (30_encoding.md R35). -/
def execEnci (_inLen : Len) (inData : Data) (s : State) : Out := answer (enci (low16 inData)) s

/-- DECI (R71). -/
def execDeci (inLen : Len) (inData : Data) (s : State) : Out := answer (deci inLen inData) s

end Sys2Proof.Machine
end

