-- ==== Sys2Proof/Machine/Reserved.lean ====
section
/-!
DEFINITION. The two reserved operation selects (30_encoding.md R34): they raise IllegalOp whatever
`in_len` and `in_data` are, and no length check is made (60_exceptions.md R122, R124).
-/

namespace Sys2Proof.Machine

/-- OP3 (30_encoding.md R34). -/
def execOp3 (_inLen : Len) (_inData : Data) (s : State) : Out := answer (raise .illegalOp) s

/-- OP7 (30_encoding.md R34). -/
def execOp7 (_inLen : Len) (_inData : Data) (s : State) : Out := answer (raise .illegalOp) s

end Sys2Proof.Machine
end

