-- ==== Sys2Proof/Machine/Single.lean ====
section
/-!
DEFINITION. legacy_single_codec (42_single_codec.md): ENCS and DECS. Exponents are mathematical
integers and are compared before any narrowing (40_data_formats.md R64); the narrowing is the
`BitVec.ofInt` that writes the field.
-/

namespace Sys2Proof.Machine

/-- The legacy pattern ENCS emits (R80): one chain of tests, the first that holds decides. -/
def encsPattern (p : Params) (h : Bits32) : Bits32 :=
  let l : Int := (exp32 h).toNat + offSingle
  if exp32 h = 255#8 ∧ mant32 h ≠ 0#23 then nanSingle p
  else if l > lMax then ovfSingle (sign32 h)
  else if exp32 h = 0#8 ∧ mant32 h = 0#23 then zeroSingle (sign32 h)
  else packSingle (BitVec.ofInt 8 l) (sign32 h) (mant32 h)

/-- The binary32 pattern DECS returns (R81), by the classes of 40_data_formats.md R62 in order. A
legacy exponent of 1 is the instance's policy (40_data_formats.md R67); one of 2 gives host
exponent 0, a host zero or subnormal, by the rule as it is written. -/
def decsPattern (p : Params) (w : Bits32) : Bits32 :=
  if singleL w = 0xFF#8 then
    (if singleM w = 0#23 then p.hostQnan32 else inf32 (singleS w))
  else if singleL w = 0#8 then hostZero32 (singleS w)
  else if singleL w = 1#8 then
    match p.sglDecL1 with
    | .wrap => pack32 (singleS w) (BitVec.ofInt 8 (1 - offSingle)) (singleM w)
    | .zero => hostZero32 (singleS w)
  else pack32 (singleS w) (BitVec.ofInt 8 ((singleL w).toNat - offSingle)) (singleM w)

/-- ENCS of a binary32 (R80). -/
def encs (p : Params) (h : Bits32) : Response := okResponse 4#4 (zext32 (encsPattern p h))

/-- DECS of a presented byte sequence (R81). -/
def decs (p : Params) (inLen : Len) (inData : Data) : Response :=
  checkLength 4#4 inLen (okResponse 4#4 (zext32 (decsPattern p (low32 inData))))

/-- ENCS (R80); `in_len` and `in_data[63:32]` are ignored (30_encoding.md R35). -/
def execEncs (_inLen : Len) (inData : Data) (s : State) : Out :=
  answer (encs s.params (low32 inData)) s

/-- DECS (R81). -/
def execDecs (inLen : Len) (inData : Data) (s : State) : Out :=
  answer (decs s.params inLen inData) s

end Sys2Proof.Machine
end

