-- ==== Sys2Proof/Machine/Dispatch.lean ====
section
/-!
DEFINITION. The dispatch of 30_encoding.md R33: one arm for each constructor of Instr, one direct
call of its meaning.
-/

namespace Sys2Proof.Machine

def exec (i : Instr) (s : State) : Host.Outcome State Fault Refusal :=
  match i with
  | .enci inLen inData => Sys2Proof.Machine.execEnci inLen inData s
  | .encs inLen inData => Sys2Proof.Machine.execEncs inLen inData s
  | .encd inLen inData => Sys2Proof.Machine.execEncd inLen inData s
  | .op3 inLen inData => Sys2Proof.Machine.execOp3 inLen inData s
  | .deci inLen inData => Sys2Proof.Machine.execDeci inLen inData s
  | .decs inLen inData => Sys2Proof.Machine.execDecs inLen inData s
  | .decd inLen inData => Sys2Proof.Machine.execDecd inLen inData s
  | .op7 inLen inData => Sys2Proof.Machine.execOp7 inLen inData s

end Sys2Proof.Machine
end

