-- ==== Sys2Proof/Machine/Step.lean ====
section
/-!
DEFINITION. One step is one operation (70_reset_and_hazards.md R145, R147): the request that
stands on the request wires is taken, decoded and evaluated, and its response is produced.
-/

namespace Sys2Proof.Machine

/-- One operation. With no request presented there is none to evaluate (70_reset_and_hazards.md
R141), and the step stops. -/
def step (s : State) : Host.Outcome State Fault Refusal :=
  match s.fetch with
  | none => .fault .noRequest
  | some (w, s') => exec (decode w) s'

/-- `s` with the request whose low `nbits` bits are those of `w`, the bits above zero, on the
request wires, in place of the request that stands there. -/
def State.withFetchWord (s : State) (nbits w : Nat) : State :=
  s.present (BitVec.ofNat 71 (w % 2 ^ nbits))

end Sys2Proof.Machine
end

