-- ==== Sys2Proof/Machine/Generic.lean ====
section
/-!
DEFINITION. The one generically parameterized routine of 70_reset_and_hazards.md R148: the shared
algorithm of both floating-point codecs, on unsigned integers with shifts and masks, with the
width, the mantissa bits and the bias offset as its only customization points and the double's
underflow branch as an explicit conditional. It is a second description; the machine runs
Machine/Single.lean and Machine/Double.lean, and that the two descriptions agree is a statement.
-/

namespace Sys2Proof.Machine

/-- The customization points of R148 (00_scope.md R7). -/
structure Format where
  /-- `WIDTH` in bytes. -/
  width : Nat
  /-- `MANTISSA_BITS`. -/
  mantBits : Nat
  /-- `EXP_BIAS_OFFSET`. -/
  offset : Int
  /-- Whether the format has the underflow-to-zero branch. -/
  flushes : Bool
deriving DecidableEq, Repr

/-- The single instantiation (40_data_formats.md R60). -/
def Format.single : Format where
  width := 4
  mantBits := 23
  offset := 2
  flushes := false

/-- The double instantiation (40_data_formats.md R60). -/
def Format.double : Format where
  width := 8
  mantBits := 52
  offset := -894
  flushes := true

/-- Host exponent width: what the sign and the mantissa leave of the host number (R60). -/
def Format.expBits (f : Format) : Nat := 8 * f.width - 1 - f.mantBits

/-- Legacy mantissa field width: what the exponent byte and the sign leave (R60). -/
def Format.fieldBits (f : Format) : Nat := 8 * f.width - 9

/-- Position of the legacy exponent byte (R60). -/
def Format.expPos (f : Format) : Nat := 8 * f.width - 8

/-- Mantissa storage shift `SH` (R60). -/
def Format.shift (f : Format) : Nat := f.fieldBits - f.mantBits

/-- The encoder: steps 1 to 5 of the source, quoted in 42_single_codec.md R80 and
43_double_codec.md R100. -/
def Format.encode (f : Format) (p : Params) (h : Nat) : Nat :=
  let s := h >>> (8 * f.width - 1)
  let e := (h >>> f.mantBits) % 2 ^ f.expBits
  let m := h % 2 ^ f.mantBits
  let l : Int := e + f.offset
  let tooSmall : Bool :=
    f.flushes && (if p.dblUnderflowAtL0 then decide (l ≤ 0) else decide (l < 0))
  if e = 2 ^ f.expBits - 1 ∧ m ≠ 0 then
    (0xFF <<< f.expPos) ||| (p.nanSign.toNat <<< f.fieldBits)
  else if l > 254 then
    (0xFF <<< f.expPos) ||| (s <<< f.fieldBits) ||| (2 ^ f.fieldBits - 1)
  else if (e = 0 ∧ m = 0) ∨ tooSmall then
    s <<< f.fieldBits
  else
    (l.toNat <<< f.expPos) ||| (s <<< f.fieldBits) ||| (m <<< f.shift)

/-- The decoder: steps 1 to 4 of the source, quoted in 42_single_codec.md R81 and
43_double_codec.md R101. A host exponent below 0 is the `L = 1` case of the single format, decided
by the instance's policy (40_data_formats.md R67). -/
def Format.decode (f : Format) (p : Params) (quietNaN w : Nat) : Nat :=
  let l := w >>> f.expPos
  let s := (w >>> f.fieldBits) % 2
  let mf := w % 2 ^ f.fieldBits
  let sign := s <<< (8 * f.width - 1)
  let e : Int := l - f.offset
  if l = 0xFF then
    (if mf = 0 then quietNaN else sign ||| ((2 ^ f.expBits - 1) <<< f.mantBits))
  else if l = 0 then sign
  else if e < 0 ∧ p.sglDecL1 = .zero then sign
  else sign ||| ((e % 2 ^ f.expBits).toNat <<< f.mantBits) ||| (mf >>> f.shift)

end Sys2Proof.Machine
end

