-- ==== Sys2Proof/Machine/Request.lean ====
section
/-!
DEFINITION. CORE as the spec describes it, a total function from a request to a response
(30_encoding.md R33), with no machine around it. The six functions it selects among are the six
ports of the equivalent interface of R43. The machine's `step` is written from the decoder and the
meanings; that the two agree is a statement, not a definition.
-/

namespace Sys2Proof.Machine

/-- `exec(req)` of 30_encoding.md R33, for an instance with parameters `p`. The last case is the
reserved selects 3 and 7 (R34). -/
def respond (p : Params) (w : ReqWord) : Response :=
  match (reqOp w).toNat with
  | 0 => enci (low16 (reqInData w))
  | 1 => encs p (low32 (reqInData w))
  | 2 => encd p (low64 (reqInData w))
  | 4 => deci (reqInLen w) (reqInData w)
  | 5 => decs p (reqInLen w) (reqInData w)
  | 6 => decd p (reqInLen w) (reqInData w)
  | _ => raise .illegalOp

/-- The observable outcome of a run: `exec` mapped over the list of requests
(70_reset_and_hazards.md R147). -/
def outcome (p : Params) (ws : List ReqWord) : List Response := ws.map (respond p)

end Sys2Proof.Machine
end

