-- ==== Sys2Proof/Machine/Presentation.lean ====
section
/-!
DEFINITION. The host's side of the request wires: how a byte sequence is presented to a decode
(30_encoding.md R36; 70_reset_and_hazards.md R143) and what the lines of a program ask for (R39,
R40). Feeding a result into a later request is done by the host; CORE has no path from a response
to a later request (R40).
-/

namespace Sys2Proof.Machine

/-- `in_len` for a byte sequence: its length, limited to 15 (30_encoding.md R36). -/
def presentedLen (bs : List Byte) : Len := BitVec.ofNat 4 (min bs.length 15)

/-- Byte `i` of the sequence in lane `i`, the lanes above it zero (20_memory.md R21). -/
def lanesOf (bs : List Byte) : Data := BitVec.ofNat 64 (wordOf bs)

/-- The request fields present this byte sequence: `in_len` is its length limited to 15 and each
of its first eight bytes stands in its lane. The lanes at and above its length may hold anything
(30_encoding.md R36). -/
def presents (inLen : Len) (inData : Data) (bs : List Byte) : Bool :=
  inLen == presentedLen bs &&
    (List.range (min bs.length 8)).all fun i => lane inData i == bs.getD i 0#8

/-- The operand of one line of a program (30_encoding.md R39, R40). -/
inductive Source where
  /-- A hex number, the operand of an encode. -/
  | number (v : Data)
  /-- Hex bytes, low byte first, the operand of a decode. -/
  | bytes (bs : List Byte)
  /-- `$k`: the result of line `k`, lines counted from 1. -/
  | result (k : Nat)
deriving DecidableEq, Repr

/-- One line of a program: the operation select its mnemonic stands for, its operand, and the
length forced by `len=n` where it is written (30_encoding.md R39). -/
structure Line where
  op : BitVec 3
  source : Source
  len : Option Len
deriving DecidableEq, Repr

/-- Whether a select is one of the three encodes, 0 to 2 (30_encoding.md R33). -/
def isEncodeOp (op : BitVec 3) : Bool := decide (op.toNat < 3)

/-- The request a line asks for, given the responses of the lines before it; none where `$k` names
a line that has no response yet. `in_len` of an encode is 0 where `len=` is not written (R39); of
a decode it is the number of bytes written (R39) or the `out_len` of line `k` (R40)
(notes/assumptions/7.md). -/
def Line.request (done : List Response) (l : Line) : Option ReqWord :=
  match l.source with
  | .number v => some (packReq l.op (l.len.getD 0#4) v)
  | .bytes bs => some (packReq l.op (l.len.getD (presentedLen bs)) (lanesOf bs))
  | .result 0 => none
  | .result (k + 1) =>
    match done[k]? with
    | none => none
    | some r => some (packReq l.op (l.len.getD (if isEncodeOp l.op then 0#4 else r.outLen)) r.outData)

/-- The responses of a program's lines, after those already produced (30_encoding.md R40); none
where a line names a result that does not exist. -/
def runLines (p : Params) : List Line → List Response → Option (List Response)
  | [], done => some done
  | l :: ls, done =>
    match l.request done with
    | none => none
    | some w => runLines p ls (done ++ [respond p w])

end Sys2Proof.Machine
end

