-- ==== Sys2Proof/Machine/Values.lean ====
section
/-!
DEFINITION. The numbers that patterns stand for: an int16 (40_data_formats.md R50), a binary32 and
a binary64 (R51, R52), and a legacy finite pattern by the formula of R63. CORE computes none of
them (R64); they are what its statements about magnitudes are in terms of.
-/

namespace Sys2Proof.Machine

/-- The numeric value of an int16, `v[14:0] - 2^15 * v[15]` (R50). -/
def valueInt16 (v : BitVec 16) : Int :=
  (v.extractLsb' 0 15).toNat - 2 ^ 15 * (v.extractLsb' 15 1).toNat

/-- `(-1)^s`. -/
def signFactor (s : BitVec 1) : ℚ := if s = 1#1 then -1 else 1

/-- The value of a binary32 pattern (R51); none for a NaN or an infinity. -/
def value32 (h : Bits32) : Option ℚ :=
  match class32 h with
  | .nan => none
  | .infinity => none
  | .zero => some 0
  | .subnormal =>
    some (signFactor (sign32 h) * ((mant32 h).toNat / 2 ^ 23) * (2 : ℚ) ^ (-126 : ℤ))
  | .normal =>
    some (signFactor (sign32 h) * (1 + (mant32 h).toNat / 2 ^ 23)
      * (2 : ℚ) ^ ((exp32 h).toNat - hostBias32))

/-- The value of a binary64 pattern (R52); none for a NaN or an infinity. -/
def value64 (h : Bits64) : Option ℚ :=
  match class64 h with
  | .nan => none
  | .infinity => none
  | .zero => some 0
  | .subnormal =>
    some (signFactor (sign64 h) * ((mant64 h).toNat / 2 ^ 52) * (2 : ℚ) ^ (-1022 : ℤ))
  | .normal =>
    some (signFactor (sign64 h) * (1 + (mant64 h).toNat / 2 ^ 52)
      * (2 : ℚ) ^ ((exp64 h).toNat - hostBias64))

/-- The number a legacy single pattern stands for by the formula of R63, `(-1)^S * (1 + M/2^23) *
2^(L-129)`. -/
def legacyValueSingle (w : Bits32) : ℚ :=
  signFactor (singleS w) * (1 + (singleM w).toNat / 2 ^ 23)
    * (2 : ℚ) ^ (((singleL w).toNat : ℤ) - 129)

/-- The number a legacy double pattern stands for by the formula of R63, with the padding bits
dropped. -/
def legacyValueDouble (w : Bits64) : ℚ :=
  signFactor (doubleS w) * (1 + (loadMantissa (doubleF w)).toNat / 2 ^ 52)
    * (2 : ℚ) ^ (((doubleL w).toNat : ℤ) - 129)

end Sys2Proof.Machine
end

