-- ==== Sys2Proof/Machine/Flags.lean ====
section
/-!
DEFINITION. CORE has no flags, condition codes or predicates, and no operation sets a sticky one
(10_state.md R13): saturation, flush to zero, NaN canonicalisation and the dropping of padding
bits are all silent. The one condition it reports is the `status` field of the response it belongs
to; this file gives that field its bits and packs the response word.
-/

namespace Sys2Proof.Machine

/-- The 2-bit code of a status (30_encoding.md R32). -/
def Status.code : Status → BitVec 2
  | .ok => 0b00#2
  | .lengthError => 0b01#2
  | .illegalOp => 0b10#2

/-- `RSP = {status[1:0], out_len[3:0], out_data[63:0]}` (30_encoding.md R31). -/
def Response.pack (r : Response) : RspWord := r.status.code ++ r.outLen ++ r.outData

end Sys2Proof.Machine
end

