-- ==== Sys2Proof/Safety.lean ====
section
/-!
DEFINITION. What counts as a safe machine and a safe run: the parameters are ones an instance may
have, and every response produced has a legal form.
-/

namespace Sys2Proof.Machine

/-- The form of a response (30_encoding.md R31, R32, R37; 60_exceptions.md R120): on success 2, 4
or 8 bytes and no bit above them; on an error length 0 and data 0. -/
def Response.legal (r : Response) : Bool :=
  match r.status with
  | .ok =>
    (r.outLen == 2#4 || r.outLen == 4#4 || r.outLen == 8#4)
      && decide (r.outData.toNat < 2 ^ (8 * r.outLen.toNat))
  | .lengthError => r.outLen == 0#4 && r.outData == 0#64
  | .illegalOp => r.outLen == 0#4 && r.outData == 0#64

/-- The invariant of the machine. -/
def State.inv (s : State) : Bool := s.params.wf && s.responses.all Response.legal

/-- The machine goes through `n` operations from `s` without a stop and is then `t`. -/
def runsTo (n : Nat) (s t : State) : Prop := Host.Core.run Sys2Proof.core n s = .next t

end Sys2Proof.Machine
end

