-- ==== Sys2Proof/Certificates/Slice0/Obligations.lean ====
section
/-!
DEFINITION. The statements for the provers. Every one is for every value of the five parameters
(00_scope.md R8), since a state or a parameter set is quantified over.

How a response reads: `s.responses ++ [r]` in the next state says that `r` is the one response the
operation produced; that `requests` and `params` are not updated says that nothing else changed.

A rule of the spec that carries its own mark, a decision D<n> of 92_eei_decisions.md or a
derivation, is formalised here too; such a statement has basis 'derived' in OBLIGATIONS.json, and
its text there names the mark (notes/assumptions/4.md).
-/

open Sys2Proof Sys2Proof.Machine

/-! ## The machine as a whole -/

/-- At reset the parameters are legal ones and there is no response of an illegal form. Both are
the model's choice and no rule of the spec: that the reset state is the instance with the default
parameters of 00_scope.md R8 is notes/assumptions/1.md, that its lists are empty is
notes/assumptions/2.md (70_reset_and_hazards.md R140 gives CORE no reset value). -/
def Obligations.ResetSatisfiesTheInvariant : Prop := State.reset.inv = true

/-- The invariant: the parameters stay ones an instance may have (00_scope.md R8), and every
response produced has one of the forms of 30_encoding.md R31, R32, R37 and 60_exceptions.md R120. -/
def Obligations.StepKeepsTheInvariant : Prop :=
  ∀ s t : State, s.inv = true → step s = .next t → t.inv = true

/-- Every request of the `2^71` gets exactly one response, of a legal form; the step goes on, takes
that request alone off the host's list, keeps every earlier response and the parameters
(30_encoding.md R31, R33; 10_state.md R14). -/
def Obligations.StepTakesOneRequestAndAddsOneResponse : Prop :=
  ∀ (s : State) (w : ReqWord) (rest : List ReqWord), s.requests = w :: rest →
    ∃ r : Response, r.legal = true ∧
      step s = .next { params := s.params, requests := rest, responses := s.responses ++ [r] }

/-- A step runs the instruction the head request decodes to, on the machine with the host's list
moved past it. -/
def Obligations.StepRunsTheDecodedRequest : Prop :=
  ∀ (s : State) (w : ReqWord) (rest : List ReqWord), s.requests = w :: rest →
    step s = exec (decode w) { s with requests := rest }

/-- An instruction put on the request wires by its encoding is the one the next step runs
(notes/assumptions/2.md for the wires, notes/assumptions/3.md for the 72-bit table word). -/
def Obligations.PresentedInstructionIsTheOneRun : Prop :=
  ∀ (s : State) (i : Instr),
    step (s.withFetchWord 72 (encode i).toNat) = exec i { s with requests := s.requests.tail }

/-- The response of an operation is a function of its request and of the parameters only: two
machines that agree on these give the same response, whatever was requested or answered before
and whatever is requested after (10_state.md R10). -/
def Obligations.ResponseDependsOnRequestAndParametersOnly : Prop :=
  ∀ (s t : State) (w : ReqWord) (restS restT : List ReqWord),
    s.requests = w :: restS → t.requests = w :: restT → s.params = t.params →
    ∃ r : Response,
      step s = .next { s with requests := restS, responses := s.responses ++ [r] } ∧
      step t = .next { t with requests := restT, responses := t.responses ++ [r] }

/-- The machine, built from the decoder and the meanings, answers what the function of
30_encoding.md R33 answers. -/
def Obligations.StepAnswersByTheOperationMap : Prop :=
  ∀ (s : State) (w : ReqWord) (rest : List ReqWord), s.requests = w :: rest →
    step s = .next { s with requests := rest, responses := s.responses ++ [respond s.params w] }

/-- A run of any number of the requests presented completes, and its outcome is `exec` mapped over
them, in order (70_reset_and_hazards.md R147). -/
def Obligations.RunAnswersEveryRequestInOrder : Prop :=
  ∀ (s : State) (n : Nat), n ≤ s.requests.length →
    runsTo n s { s with
      requests := s.requests.drop n
      responses := s.responses ++ outcome s.params (s.requests.take n) }

/-- The only stop of the machine is at the end of the host's list (the model's fault
`noRequest`, notes/assumptions/2.md; there is no hang, no stuck state and no divergence,
70_reset_and_hazards.md R147). -/
def Obligations.RunStopsOnlyPastTheLastRequest : Prop :=
  ∀ (s : State) (n : Nat),
    (s.requests.length < n → Host.Core.run Sys2Proof.core n s = .fault .noRequest) ∧
    (n ≤ s.requests.length → ∃ t, runsTo n s t)

/-- Any two operations commute, so the requests of a run may be put in any order: each still gets
the response it got (20_memory.md R26). -/
def Obligations.ReorderedRequestsGetTheSameResponses : Prop :=
  ∀ s t : State, s.params = t.params → s.requests.Perm t.requests →
    s.responses = [] → t.responses = [] →
    ∃ s' t' : State, runsTo s.requests.length s s' ∧ runsTo t.requests.length t t' ∧
      s'.responses.length = s.requests.length ∧ t'.responses.length = t.requests.length ∧
      (s.requests.zip s'.responses).Perm (t.requests.zip t'.responses)

/-- An error leaves no trace: the request after a failed one is answered as if the failed one had
never been made (60_exceptions.md R126). -/
def Obligations.FailedRequestLeavesNoTrace : Prop :=
  ∀ (s t : State) (bad w : ReqWord) (rest : List ReqWord),
    s.requests = bad :: w :: rest → t.requests = w :: rest → s.params = t.params →
    (respond s.params bad).status ≠ .ok →
    ∃ (e r : Response) (s' t' : State), e.status ≠ .ok ∧
      runsTo 2 s s' ∧ s'.responses = s.responses ++ [e, r] ∧
      runsTo 1 t t' ∧ t'.responses = t.responses ++ [r] ∧ s'.params = t'.params

/-! ## Encoding -/

/-- Decoding the request word of an instruction gives the instruction back, with every value of
its two fields. -/
def Obligations.DecodeOfEncodeIsTheInstruction : Prop := ∀ i : Instr, decode (encode i) = i

/-- Encoding what a request word decodes to gives the word back: no bit of it is dropped, the
ignored ones either. -/
def Obligations.EncodeOfDecodeIsTheWord : Prop := ∀ w : ReqWord, encode (decode w) = w

/-- The mask and match form of 30_encoding.md R33: bits 70:68 alone select the operation, and each
select its own. -/
def Obligations.MaskedSelectBitsDecideTheOperation : Prop :=
  ∀ w : ReqWord,
    (w &&& 0x700000000000000000#71 = 0x000000000000000000#71
      ↔ decode w = .enci (w.extractLsb' 64 4) (w.extractLsb' 0 64)) ∧
    (w &&& 0x700000000000000000#71 = 0x100000000000000000#71
      ↔ decode w = .encs (w.extractLsb' 64 4) (w.extractLsb' 0 64)) ∧
    (w &&& 0x700000000000000000#71 = 0x200000000000000000#71
      ↔ decode w = .encd (w.extractLsb' 64 4) (w.extractLsb' 0 64)) ∧
    (w &&& 0x700000000000000000#71 = 0x300000000000000000#71
      ↔ decode w = .op3 (w.extractLsb' 64 4) (w.extractLsb' 0 64)) ∧
    (w &&& 0x700000000000000000#71 = 0x400000000000000000#71
      ↔ decode w = .deci (w.extractLsb' 64 4) (w.extractLsb' 0 64)) ∧
    (w &&& 0x700000000000000000#71 = 0x500000000000000000#71
      ↔ decode w = .decs (w.extractLsb' 64 4) (w.extractLsb' 0 64)) ∧
    (w &&& 0x700000000000000000#71 = 0x600000000000000000#71
      ↔ decode w = .decd (w.extractLsb' 64 4) (w.extractLsb' 0 64)) ∧
    (w &&& 0x700000000000000000#71 = 0x700000000000000000#71
      ↔ decode w = .op7 (w.extractLsb' 64 4) (w.extractLsb' 0 64))

/-- Request words printed in 95_test_vectors.md decode to the requests they stand for: the ENCD
word is line 1 of program P2 and the OP3 word line 5 of P6 (section 3), the others stand in section
2. The numbering of the selects is the spec's decision D4 (30_encoding.md R33); that 18 hex digits
hold the 71-bit word with bit 71 zero is notes/assumptions/3.md. -/
def Obligations.PrintedRequestWordsDecode : Prop :=
  decodeTableWord 72 0x00FFFFFFFFFFFF8000 = some (.enci 0 0xFFFFFFFFFFFF8000) ∧
  decodeTableWord 72 0x19DEADBEEF3F800000 = some (.encs 9 0xDEADBEEF3F800000) ∧
  decodeTableWord 72 0x2047D02CBFD7656218 = some (.encd 0 0x47D02CBFD7656218) ∧
  decodeTableWord 72 0x388100000000000000 = some (.op3 8 0x8100000000000000) ∧
  decodeTableWord 72 0x42AAAAAAAAAAAA1234 = some (.deci 2 0xAAAAAAAAAAAA1234) ∧
  decodeTableWord 72 0x54FFFFFFFF81000000 = some (.decs 4 0xFFFFFFFF81000000) ∧
  decodeTableWord 72 0x688100000000000000 = some (.decd 8 0x8100000000000000) ∧
  decodeTableWord 72 0x78FFFFFFFFFFFFFFFF = some (.op7 8 0xFFFFFFFFFFFFFFFF)

/-- The response word has its three fields where 30_encoding.md R31 puts them, and its status is
never `0b11` (R32). -/
def Obligations.PackedResponseHasItsThreeFields : Prop :=
  ∀ r : Response,
    r.pack.toNat = r.status.code.toNat * 2 ^ 68 + r.outLen.toNat * 2 ^ 64 + r.outData.toNat ∧
    (r.status.code = 0b00#2 ↔ r.status = .ok) ∧
    (r.status.code = 0b01#2 ↔ r.status = .lengthError) ∧
    (r.status.code = 0b10#2 ↔ r.status = .illegalOp) ∧
    r.pack.extractLsb' 68 2 ≠ 0b11#2

/-! ## Each operation: what it answers -/

/-- ENCI (41_integer_codec.md R70): `B[0] = v[7:0]`, `B[1] = v[15:8]`, `return OK(2, word(B))`,
for every `in_len` and every `in_data`. -/
def Obligations.EnciAnswersItsTwoBytes : Prop :=
  ∀ (inLen : Len) (inData : Data) (s : State),
    exec (.enci inLen inData) s = .next { s with responses := s.responses ++
      [{ status := .ok
         outLen := 2#4
         outData := BitVec.ofNat 64 (wordOf [inData.extractLsb' 0 8, inData.extractLsb' 8 8]) }] }

/-- DECI (41_integer_codec.md R71): of two bytes `v = {B[1], B[0]}`, `return OK(2, v)`; with any
other `in_len` it raises LengthError and `in_data` has no influence. The second clause is the
numeric value of the result, `v[14:0] - 2^15 * v[15]`, in terms of the two bytes. -/
def Obligations.DeciAnswersTheIntegerOfTwoBytes : Prop :=
  ∀ (inLen : Len) (inData : Data) (s : State),
    let b0 : Nat := (inData.extractLsb' 0 8).toNat
    let b1 : Nat := (inData.extractLsb' 8 8).toNat
    exec (.deci inLen inData) s = .next { s with responses := s.responses ++
      [if inLen ≠ 2#4 then { status := .lengthError, outLen := 0#4, outData := 0#64 }
       else { status := .ok, outLen := 2#4, outData := BitVec.ofNat 64 (b1 * 256 + b0) }] } ∧
    valueInt16 (BitVec.ofNat 16 (b1 * 256 + b0))
      = (b1 % 128 * 256 + b0 : Int) - 2 ^ 15 * (b1 / 128 : Nat)

/-- ENCS (42_single_codec.md R80), its pseudocode on unsigned integers. -/
def Obligations.EncsAnswersTheLegacySingle : Prop :=
  ∀ (inLen : Len) (inData : Data) (s : State),
    let h : Nat := inData.toNat % 2 ^ 32
    let sgn : Nat := h >>> 31
    let e : Nat := (h >>> 23) % 256
    let m : Nat := h % 2 ^ 23
    let w : Nat :=
      if e = 255 ∧ m ≠ 0 then (0xFF <<< 24) ||| (s.params.nanSign.toNat <<< 23)
      else if e + 2 > 254 then (0xFF <<< 24) ||| (sgn <<< 23) ||| 0x7FFFFF
      else if e = 0 ∧ m = 0 then sgn <<< 23
      else ((e + 2) <<< 24) ||| (sgn <<< 23) ||| m
    exec (.encs inLen inData) s = .next { s with responses := s.responses ++
      [{ status := .ok, outLen := 4#4, outData := BitVec.ofNat 64 w }] }

/-- DECS of four bytes (42_single_codec.md R81), its pseudocode on unsigned integers. The clauses
for `L = 1` and `L = 2` are the spec's decisions D20 (a parameter) and D21. -/
def Obligations.DecsAnswersTheBinary32 : Prop :=
  ∀ (inData : Data) (s : State),
    let w : Nat := inData.toNat % 2 ^ 32
    let l : Nat := w >>> 24
    let sgn : Nat := (w >>> 23) % 2
    let m : Nat := w % 2 ^ 23
    let h : Nat :=
      if l = 0xFF then
        (if m = 0 then s.params.hostQnan32.toNat else (sgn <<< 31) ||| (0xFF <<< 23))
      else if l = 0 then sgn <<< 31
      else if l = 1 then
        (if s.params.sglDecL1 = .wrap then (sgn <<< 31) ||| (0xFF <<< 23) ||| m else sgn <<< 31)
      else (sgn <<< 31) ||| ((l - 2) <<< 23) ||| m
    exec (.decs 4#4 inData) s = .next { s with responses := s.responses ++
      [{ status := .ok, outLen := 4#4, outData := BitVec.ofNat 64 h }] }

/-- ENCD (43_double_codec.md R100), its pseudocode on integers. -/
def Obligations.EncdAnswersTheLegacyDouble : Prop :=
  ∀ (inLen : Len) (inData : Data) (s : State),
    let sgn : Nat := inData.toNat >>> 63
    let e : Nat := (inData.toNat >>> 52) % 2048
    let m : Nat := inData.toNat % 2 ^ 52
    let l : Int := (e : Int) - 894
    let w : Nat :=
      if e = 2047 ∧ m ≠ 0 then (0xFF <<< 56) ||| (s.params.nanSign.toNat <<< 55)
      else if l > 254 then (0xFF <<< 56) ||| (sgn <<< 55) ||| 0x7FFFFFFFFFFFFF
      else if (e = 0 ∧ m = 0) ∨ (s.params.dblUnderflowAtL0 = true ∧ l ≤ 0) ∨
          (s.params.dblUnderflowAtL0 = false ∧ l < 0) then sgn <<< 55
      else (l.toNat <<< 56) ||| (sgn <<< 55) ||| (m <<< 3)
    exec (.encd inLen inData) s = .next { s with responses := s.responses ++
      [{ status := .ok, outLen := 8#4, outData := BitVec.ofNat 64 w }] }

/-- DECD of eight bytes (43_double_codec.md R101), its pseudocode on unsigned integers. That the
NaN test is on all 55 bits is the spec's decision D18. -/
def Obligations.DecdAnswersTheBinary64 : Prop :=
  ∀ (inData : Data) (s : State),
    let l : Nat := inData.toNat >>> 56
    let sgn : Nat := (inData.toNat >>> 55) % 2
    let f : Nat := inData.toNat % 2 ^ 55
    let h : Nat :=
      if l = 0xFF then
        (if f = 0 then s.params.hostQnan64.toNat else (sgn <<< 63) ||| (0x7FF <<< 52))
      else if l = 0 then sgn <<< 63
      else (sgn <<< 63) ||| ((l + 894) <<< 52) ||| (f >>> 3)
    exec (.decd 8#4 inData) s = .next { s with responses := s.responses ++
      [{ status := .ok, outLen := 8#4, outData := BitVec.ofNat 64 h }] }

/-- The reserved selects answer ILLEGAL_OP with nothing recorded, whatever the other fields are
(30_encoding.md R34; 60_exceptions.md R122; the spec's decision D5). -/
def Obligations.ReservedSelectsAnswerIllegalOp : Prop :=
  ∀ (inLen : Len) (inData : Data) (s : State),
    exec (.op3 inLen inData) s = .next { s with responses := s.responses ++
      [{ status := .illegalOp, outLen := 0#4, outData := 0#64 }] } ∧
    exec (.op7 inLen inData) s = .next { s with responses := s.responses ++
      [{ status := .illegalOp, outLen := 0#4, outData := 0#64 }] }

/-- A decode with any other length than its own raises LengthError and answers nothing else; that
length and data are zero then is the spec's decision D10 (60_exceptions.md R121). -/
def Obligations.WrongLengthAnswersLengthError : Prop :=
  ∀ (inLen : Len) (inData : Data) (s : State),
    (inLen ≠ 2#4 → exec (.deci inLen inData) s = .next { s with responses := s.responses ++
      [{ status := .lengthError, outLen := 0#4, outData := 0#64 }] }) ∧
    (inLen ≠ 4#4 → exec (.decs inLen inData) s = .next { s with responses := s.responses ++
      [{ status := .lengthError, outLen := 0#4, outData := 0#64 }] }) ∧
    (inLen ≠ 8#4 → exec (.decd inLen inData) s = .next { s with responses := s.responses ++
      [{ status := .lengthError, outLen := 0#4, outData := 0#64 }] })

/-- Which of the three outcomes a request has, in the order of the tests: a reserved select first,
then the length of a decode, then success (60_exceptions.md R120, R124; the spec's decisions D3
and D11). -/
def Obligations.StatusFollowsTheOrderOfTests : Prop :=
  ∀ (s : State) (op : BitVec 3) (inLen : Len) (inData : Data) (rest : List ReqWord),
    s.requests = packReq op inLen inData :: rest →
    ∃ r : Response,
      step s = .next { s with requests := rest, responses := s.responses ++ [r] } ∧
      r.status =
        (if op = 3#3 ∨ op = 7#3 then .illegalOp
         else if (op = 4#3 ∧ inLen ≠ 2#4) ∨ (op = 5#3 ∧ inLen ≠ 4#4) ∨ (op = 6#3 ∧ inLen ≠ 8#4) then
           .lengthError
         else .ok)

/-- The bits a request may hold anything in: `in_len` and the bits above the operand on an encode,
the lanes above the width on a decode, all of `in_data` where the length is wrong, both fields
where the select is reserved (30_encoding.md R34 to R36; the spec's decisions D5, D7, D8). -/
def Obligations.IgnoredBitsDoNotMatter : Prop :=
  ∀ (l l' : Len) (d d' : Data) (s : State),
    (d.toNat % 2 ^ 16 = d'.toNat % 2 ^ 16 → exec (.enci l d) s = exec (.enci l' d') s) ∧
    (d.toNat % 2 ^ 32 = d'.toNat % 2 ^ 32 → exec (.encs l d) s = exec (.encs l' d') s) ∧
    (exec (.encd l d) s = exec (.encd l' d) s) ∧
    (exec (.op3 l d) s = exec (.op3 l' d') s) ∧
    (l ≠ 2#4 ∨ d.toNat % 2 ^ 16 = d'.toNat % 2 ^ 16 → exec (.deci l d) s = exec (.deci l d') s) ∧
    (l ≠ 4#4 ∨ d.toNat % 2 ^ 32 = d'.toNat % 2 ^ 32 → exec (.decs l d) s = exec (.decs l d') s) ∧
    (l ≠ 8#4 → exec (.decd l d) s = exec (.decd l d') s) ∧
    (exec (.op7 l d) s = exec (.op7 l' d') s)

/-- Where each parameter has an influence, and nowhere else: NAN_SIGN on the encoding of a NaN,
DBL_UNDERFLOW_AT_L0 on the encoding of a double with `e = 894`, HOST_QNAN32 and HOST_QNAN64 on the
decoding of a legacy NaN, SGL_DEC_L1_POLICY on the decoding of a single with `L = 1`
(00_scope.md R8). -/
def Obligations.ParametersMatterOnlyInTheirCases : Prop :=
  ∀ (p q : Params) (h32 w32 : Bits32) (h64 w64 : Bits64),
    (class32 h32 ≠ .nan ∨ p.nanSign = q.nanSign → encsPattern p h32 = encsPattern q h32) ∧
    (class64 h64 = .nan → p.nanSign = q.nanSign → encdPattern p h64 = encdPattern q h64) ∧
    (class64 h64 ≠ .nan →
      (exp64 h64).toNat ≠ 894 ∨ p.dblUnderflowAtL0 = q.dblUnderflowAtL0 →
      encdPattern p h64 = encdPattern q h64) ∧
    (classSingle w32 = .nan → p.hostQnan32 = q.hostQnan32 →
      decsPattern p w32 = decsPattern q w32) ∧
    (classSingle w32 ≠ .nan → (singleL w32).toNat ≠ 1 ∨ p.sglDecL1 = q.sglDecL1 →
      decsPattern p w32 = decsPattern q w32) ∧
    (classDouble w64 ≠ .nan ∨ p.hostQnan64 = q.hostQnan64 →
      decdPattern p w64 = decdPattern q w64)

/-! ## Byte sequences -/

/-- The little-endian layout (20_memory.md R20): `word(B)` is the sum of `B[i] * 2^(8i)`,
`bytes_n(w)` lists `w[8i+7:8i]`, and the two are inverse. -/
def Obligations.ByteSequencesAreLittleEndian : Prop :=
  (∀ bs : List Byte,
    wordOf bs = ∑ i ∈ Finset.range bs.length, (bs.getD i 0).toNat * 2 ^ (8 * i)) ∧
  (∀ n w : Nat, bytesOf n w = (List.range n).map fun i => BitVec.ofNat 8 (w / 2 ^ (8 * i))) ∧
  (∀ bs : List Byte, bytesOf bs.length (wordOf bs) = bs) ∧
  (∀ n w : Nat, w < 2 ^ (8 * n) → wordOf (bytesOf n w) = w)

/-- However long a byte sequence is and whatever stands in the lanes above it, a decode it is
presented to accepts it exactly when its length is the operation's width, and otherwise refuses
it with LengthError (20_memory.md R22). -/
def Obligations.PresentedSequenceIsAcceptedAtExactLengthOnly : Prop :=
  ∀ (bs : List Byte) (inLen : Len) (inData : Data) (s : State),
    presents inLen inData bs = true →
    (∃ r : Response, exec (.deci inLen inData) s = .next { s with responses := s.responses ++ [r] } ∧
      r.status = if bs.length = 2 then .ok else .lengthError) ∧
    (∃ r : Response, exec (.decs inLen inData) s = .next { s with responses := s.responses ++ [r] } ∧
      r.status = if bs.length = 4 then .ok else .lengthError) ∧
    (∃ r : Response, exec (.decd inLen inData) s = .next { s with responses := s.responses ++ [r] } ∧
      r.status = if bs.length = 8 then .ok else .lengthError)

/-- The operand a decode reads from a presented byte sequence of its width is `word(B)`
(30_encoding.md R36; the spec's decision D7), and the fields the model builds for a sequence
present it. -/
def Obligations.PresentedSequenceIsReadAsItsWord : Prop :=
  ∀ (bs : List Byte) (inLen : Len) (inData : Data), presents inLen inData bs = true →
    (bs.length = 2 → (low16 inData).toNat = wordOf bs) ∧
    (bs.length = 4 → (low32 inData).toNat = wordOf bs) ∧
    (bs.length = 8 → (low64 inData).toNat = wordOf bs) ∧
    presents (presentedLen bs) (lanesOf bs) bs = true

/-! ## integer_codec -/

/-- The numeric value of an int16 is its two's-complement reading, in -32768 to 32767, and every
number of that range is the value of exactly one pattern (40_data_formats.md R50). -/
def Obligations.Int16ValuesAreTwosComplement : Prop :=
  (∀ v : BitVec 16, valueInt16 v = v.toInt ∧ -32768 ≤ valueInt16 v ∧ valueInt16 v ≤ 32767) ∧
  (∀ n : Int, -32768 ≤ n → n ≤ 32767 → ∃! v : BitVec 16, valueInt16 v = n)

/-- ENCI and DECI are inverse, in both directions (41_integer_codec.md R72). -/
def Obligations.IntegerCodecRoundTrips : Prop :=
  (∀ v : BitVec 16, (deci 2#4 (enci v).outData).status = .ok ∧
    low16 (deci 2#4 (enci v).outData).outData = v) ∧
  (∀ b0 b1 : Byte,
    (enci (low16 (deci 2#4 (BitVec.ofNat 64 (wordOf [b0, b1]))).outData)).bytes = [b0, b1])

/-! ## legacy_single_codec -/

/-- Host to legacy to host, single (42_single_codec.md R85): bit for bit for zeros, subnormals,
infinities and normals with `e <= 252`; the infinity of the same sign for a larger finite value;
HOST_QNAN32 for a NaN. -/
def Obligations.SingleHostRoundTrip : Prop :=
  ∀ (p : Params) (h : Bits32),
    let h' : Bits32 := low32 (decs p 4#4 (encs p h).outData).outData
    (class32 h = .zero ∨ class32 h = .subnormal ∨ class32 h = .infinity ∨
      (class32 h = .normal ∧ (exp32 h).toNat ≤ 252) → h' = h) ∧
    (class32 h = .normal → 253 ≤ (exp32 h).toNat → h' = inf32 (sign32 h)) ∧
    (class32 h = .nan → h' = p.hostQnan32)

/-- Saturation of a single is lossy (42_single_codec.md R86): a finite value with `e >= 253`
encodes as the infinity of its sign and decodes to it; the boundary is `2^126`. -/
def Obligations.SingleSaturationIsLossy : Prop :=
  ∀ p : Params,
    (∀ h : Bits32, class32 h ≠ .nan → class32 h ≠ .infinity → 253 ≤ (exp32 h).toNat →
      encs p h = encs p (inf32 (sign32 h)) ∧
      low32 (decs p 4#4 (encs p h).outData).outData = inf32 (sign32 h)) ∧
    (encs p 0x7E7FFFFF#32).bytes = [0xFF, 0xFF, 0x7F, 0xFE] ∧
    (encs p 0x7E800000#32).bytes = [0xFF, 0xFF, 0x7F, 0xFF]

/-- NaN canonicalisation, single (42_single_codec.md R87): every NaN encodes to the one pattern
`nan_single`, and DECS of it is HOST_QNAN32, a NaN. -/
def Obligations.SingleNaNsBecomeOnePattern : Prop :=
  ∀ (p : Params) (h : Bits32), p.wf = true → class32 h = .nan →
    (encs p h).outData.toNat = (0xFF <<< 24) ||| (p.nanSign.toNat <<< 23) ∧
    low32 (decs p 4#4 (encs p h).outData).outData = p.hostQnan32 ∧
    class32 (low32 (decs p 4#4 (encs p h).outData).outData) = .nan

/-- Zero round trip, single (42_single_codec.md R88). -/
def Obligations.SingleZerosKeepTheirSign : Prop :=
  ∀ p : Params,
    (encs p 0x00000000#32).bytes = [0x00, 0x00, 0x00, 0x00] ∧
    (encs p 0x80000000#32).bytes = [0x00, 0x00, 0x80, 0x00] ∧
    decs p 4#4 (encs p 0x00000000#32).outData
      = { status := .ok, outLen := 4#4, outData := 0x00000000#64 } ∧
    decs p 4#4 (encs p 0x80000000#32).outData
      = { status := .ok, outLen := 4#4, outData := 0x80000000#64 }

/-- The image of ENCS (42_single_codec.md R84): exactly these legacy patterns. -/
def Obligations.EncsEmitsExactlyThesePatterns : Prop :=
  ∀ (p : Params) (w : Bits32),
    (∃ h : Bits32, encsPattern p h = w) ↔
      ((singleL w).toNat = 0 ∧ (singleM w).toNat = 0) ∨
      ((singleL w).toNat = 2 ∧ (singleM w).toNat ≠ 0) ∨
      (3 ≤ (singleL w).toNat ∧ (singleL w).toNat ≤ 254) ∨
      w.toNat = (0xFF <<< 24) ||| (p.nanSign.toNat <<< 23) ∨
      w = 0xFF7FFFFF#32 ∨ w = 0xFFFFFFFF#32

/-- Legacy to host to legacy, single (42_single_codec.md R89): what a foreign pattern is
normalised to. -/
def Obligations.SingleLegacyRoundTrip : Prop :=
  ∀ (p : Params) (w : Bits32), p.wf = true →
    encsPattern p (decsPattern p w) =
      if singleL w = 0xFF#8 then
        (if singleM w = 0#23 then nanSingle p else ovfSingle (singleS w))
      else if singleL w = 0#8 ∨ (singleL w = 2#8 ∧ singleM w = 0#23) then zeroSingle (singleS w)
      else if singleL w = 1#8 then
        (if p.sglDecL1 = .zero then zeroSingle (singleS w)
         else if singleM w = 0#23 then ovfSingle (singleS w) else nanSingle p)
      else w

/-- The overflow threshold in terms of magnitude, single (40_data_formats.md R65): a finite value
saturates exactly when its magnitude is at least `2^126`. -/
def Obligations.SingleSaturatesFromTwoToThe126 : Prop :=
  ∀ (p : Params) (h : Bits32) (v : ℚ), value32 h = some v →
    (encsPattern p h = ovfSingle (sign32 h) ↔ (2 : ℚ) ^ 126 ≤ |v|)

/-! ## legacy_double_codec -/

/-- Host to legacy to host, double (43_double_codec.md R105). -/
def Obligations.DoubleHostRoundTrip : Prop :=
  ∀ (p : Params) (h : Bits64),
    let h' : Bits64 := low64 (decd p 8#4 (encd p h).outData).outData
    (class64 h = .zero ∨ class64 h = .infinity ∨
      (class64 h = .normal ∧ 895 ≤ (exp64 h).toNat ∧ (exp64 h).toNat ≤ 1148) → h' = h) ∧
    (class64 h = .normal → 1149 ≤ (exp64 h).toNat → h' = inf64 (sign64 h)) ∧
    (class64 h = .subnormal ∨ (class64 h = .normal ∧ (exp64 h).toNat ≤ 894) →
      h' = hostZero64 (sign64 h)) ∧
    (class64 h = .nan → h' = p.hostQnan64)

/-- Saturation of a double is lossy (43_double_codec.md R106), with the source's 8.6e37 and the
boundary `2^126`. -/
def Obligations.DoubleSaturationIsLossy : Prop :=
  ∀ p : Params,
    (∀ h : Bits64, class64 h ≠ .nan → class64 h ≠ .infinity → 1149 ≤ (exp64 h).toNat →
      encd p h = encd p (inf64 (sign64 h)) ∧
      low64 (decd p 8#4 (encd p h).outData).outData = inf64 (sign64 h)) ∧
    (encd p 0x47D02CBFD7656218#64).bytes = [0xFF, 0xFF, 0xFF, 0xFF, 0xFF, 0xFF, 0x7F, 0xFF] ∧
    (encd p 0x47CFFFFFFFFFFFFF#64).bytes = [0xF8, 0xFF, 0xFF, 0xFF, 0xFF, 0xFF, 0x7F, 0xFE] ∧
    encd p 0x47D0000000000000#64 = encd p 0x7FF0000000000000#64

/-- NaN canonicalisation, double (43_double_codec.md R107). -/
def Obligations.DoubleNaNsBecomeOnePattern : Prop :=
  ∀ (p : Params) (h : Bits64), p.wf = true → class64 h = .nan →
    (encd p h).outData.toNat = (0xFF <<< 56) ||| (p.nanSign.toNat <<< 55) ∧
    low64 (decd p 8#4 (encd p h).outData).outData = p.hostQnan64 ∧
    class64 (low64 (decd p 8#4 (encd p h).outData).outData) = .nan

/-- Zero round trip and flush, double (43_double_codec.md R108): the two zeros keep their sign, and
a non-zero value that underflows encodes to the same two patterns. -/
def Obligations.DoubleZerosKeepTheirSignAndUnderflowJoinsThem : Prop :=
  ∀ p : Params,
    (encd p 0x0000000000000000#64).bytes = [0x00, 0x00, 0x00, 0x00, 0x00, 0x00, 0x00, 0x00] ∧
    (encd p 0x8000000000000000#64).bytes = [0x00, 0x00, 0x00, 0x00, 0x00, 0x00, 0x80, 0x00] ∧
    decd p 8#4 (encd p 0x0000000000000000#64).outData
      = { status := .ok, outLen := 8#4, outData := 0x0000000000000000#64 } ∧
    decd p 8#4 (encd p 0x8000000000000000#64).outData
      = { status := .ok, outLen := 8#4, outData := 0x8000000000000000#64 } ∧
    (∀ h : Bits64, class64 h = .subnormal ∨ class64 h = .normal →
      underflow p ((exp64 h).toNat - 894) = true → encd p h = encd p (hostZero64 (sign64 h)))

/-- The image of ENCD (43_double_codec.md R104): exactly these legacy patterns; with
DBL_UNDERFLOW_AT_L0 false also those with exponent field 0 and no padding bit set. -/
def Obligations.EncdEmitsExactlyThesePatterns : Prop :=
  ∀ (p : Params) (w : Bits64),
    (∃ h : Bits64, encdPattern p h = w) ↔
      ((doubleL w).toNat = 0 ∧ (doubleF w).toNat = 0) ∨
      (p.dblUnderflowAtL0 = false ∧ (doubleL w).toNat = 0 ∧ (doubleF w).toNat % 8 = 0) ∨
      (1 ≤ (doubleL w).toNat ∧ (doubleL w).toNat ≤ 254 ∧ (doubleF w).toNat % 8 = 0) ∨
      w.toNat = (0xFF <<< 56) ||| (p.nanSign.toNat <<< 55) ∨
      w = 0xFF7FFFFFFFFFFFFF#64 ∨ w = 0xFFFFFFFFFFFFFFFF#64

/-- Legacy to host to legacy, double (43_double_codec.md R109): the padding bits are cleared, and a
foreign pattern is normalised. -/
def Obligations.DoubleLegacyRoundTrip : Prop :=
  ∀ (p : Params) (w : Bits64), p.wf = true →
    encdPattern p (decdPattern p w) =
      if doubleL w = 0xFF#8 then
        (if doubleF w = 0#55 then nanDouble p else ovfDouble (doubleS w))
      else if doubleL w = 0#8 then zeroDouble (doubleS w)
      else w &&& 0xFFFFFFFFFFFFFFF8#64

/-- The thresholds in terms of magnitude, double (40_data_formats.md R65, R66): a finite value
saturates exactly when its magnitude is at least `2^126`; with the default it becomes a zero
exactly when its magnitude is below `2^-128`, and with DBL_UNDERFLOW_AT_L0 false exactly when it is
at most `2^-129` (there the value `2^-129` itself has the bits of the zero pattern). -/
def Obligations.DoubleThresholdsInMagnitude : Prop :=
  ∀ (p : Params) (h : Bits64) (v : ℚ), value64 h = some v →
    (encdPattern p h = ovfDouble (sign64 h) ↔ (2 : ℚ) ^ 126 ≤ |v|) ∧
    (p.dblUnderflowAtL0 = true →
      (encdPattern p h = zeroDouble (sign64 h) ↔ |v| < (2 : ℚ) ^ (-128 : ℤ))) ∧
    (p.dblUnderflowAtL0 = false →
      (encdPattern p h = zeroDouble (sign64 h) ↔ |v| ≤ (2 : ℚ) ^ (-129 : ℤ)))

/-! ## Both floating-point codecs -/

/-- The number a legacy finite pattern stands for is the number it decodes to
(40_data_formats.md R63): for single from `L = 3`, for double from `L = 1`. -/
def Obligations.DecodingKeepsTheValue : Prop :=
  ∀ p : Params,
    (∀ w : Bits32, 3 ≤ (singleL w).toNat → (singleL w).toNat ≤ 254 →
      class32 (decsPattern p w) = .normal ∧
      value32 (decsPattern p w) = some (legacyValueSingle w)) ∧
    (∀ w : Bits64, 1 ≤ (doubleL w).toNat → (doubleL w).toNat ≤ 254 →
      class64 (decdPattern p w) = .normal ∧
      value64 (decdPattern p w) = some (legacyValueDouble w))

/-- Encoding a normal number in range keeps its value and rounds nothing (40_data_formats.md R63,
R68). -/
def Obligations.EncodingKeepsTheValueInRange : Prop :=
  ∀ p : Params,
    (∀ h : Bits32, 1 ≤ (exp32 h).toNat → (exp32 h).toNat ≤ 252 →
      value32 h = some (legacyValueSingle (encsPattern p h))) ∧
    (∀ h : Bits64, 895 ≤ (exp64 h).toNat → (exp64 h).toNat ≤ 1148 →
      value64 h = some (legacyValueDouble (encdPattern p h)))

/-- The one generically parameterized routine, instantiated, equals the four operations on every
input (70_reset_and_hazards.md R148). -/
def Obligations.GenericRoutineEqualsTheCodecs : Prop :=
  ∀ (p : Params) (a : Bits32) (b : Bits64),
    (encsPattern p a).toNat = Format.single.encode p a.toNat ∧
    (decsPattern p a).toNat = Format.single.decode p p.hostQnan32.toNat a.toNat ∧
    (encdPattern p b).toNat = Format.double.encode p b.toNat ∧
    (decdPattern p b).toNat = Format.double.decode p p.hostQnan64.toNat b.toNat

/-- The lines of a program, with the host feeding results back, have the responses the machine
gives to the requests they come to: request `i` is what line `i` asks for given the responses of
the lines before it (30_encoding.md R40; the spec's decision D25, and notes/assumptions/7.md for
`in_len`). -/
def Obligations.ProgramLinesAreARunOfTheMachine : Prop :=
  ∀ (p : Params) (ls : List Line) (rs : List Response), runLines p ls [] = some rs →
    ∃ ws : List ReqWord, ws.length = ls.length ∧
      (∀ (i : Nat) (l : Line), ls[i]? = some l → l.request (rs.take i) = ws[i]?) ∧
      runsTo ws.length { params := p, requests := ws, responses := [] }
        { params := p, requests := [], responses := rs }
end

