-- ==== Sys2Proof/Laws/Bits.lean ====
section
/-!
SUPPORT. Bit vectors as numbers: what concatenation and slicing are on `toNat`, so that a fact
about fields becomes a fact of linear arithmetic.
-/

namespace Sys2Proof.Laws

theorem toNat_append_eq_add {a b : Nat} (x : BitVec a) (y : BitVec b) :
    (x ++ y).toNat = x.toNat * 2 ^ b + y.toNat := by
  rw [BitVec.toNat_append, ← Nat.shiftLeft_add_eq_or_of_lt y.isLt, Nat.shiftLeft_eq]

theorem toNat_append3_eq_add {a b c : Nat} (x : BitVec a) (y : BitVec b) (z : BitVec c) :
    (x ++ y ++ z).toNat = x.toNat * 2 ^ (b + c) + y.toNat * 2 ^ c + z.toNat := by
  rw [toNat_append_eq_add, toNat_append_eq_add, Nat.add_mul, Nat.mul_assoc, ← Nat.pow_add]

theorem toNat_slice {n : Nat} (x : BitVec n) (start len : Nat) :
    (x.extractLsb' start len).toNat = x.toNat / 2 ^ start % 2 ^ len := by
  rw [BitVec.extractLsb'_toNat, Nat.shiftRight_eq_div_pow]

end Sys2Proof.Laws
end

