-- ==== Sys2Proof/Laws/Formats.lean ====
section
/-!
SUPPORT. The fields of host numbers and legacy patterns (Machine/Formats.lean): each field and each
assembly as a number, each field of an assembled pattern, and each pattern as the assembly of its
fields.
-/

namespace Sys2Proof.Machine

/-! ## `pack32` -/

theorem pack32_toNat (s : BitVec 1) (e : BitVec 8) (m : BitVec 23) :
    (pack32 s e m).toNat = s.toNat * 2 ^ 31 + e.toNat * 2 ^ 23 + m.toNat :=
  Laws.toNat_append3_eq_add s e m

theorem sign32_toNat (x : Bits32) : (sign32 x).toNat = x.toNat / 2 ^ 31 % 2 ^ 1 :=
  Laws.toNat_slice x 31 1

theorem exp32_toNat (x : Bits32) : (exp32 x).toNat = x.toNat / 2 ^ 23 % 2 ^ 8 :=
  Laws.toNat_slice x 23 8

theorem mant32_toNat (x : Bits32) : (mant32 x).toNat = x.toNat / 2 ^ 0 % 2 ^ 23 :=
  Laws.toNat_slice x 0 23

@[simp] theorem sign32_pack32 (s : BitVec 1) (e : BitVec 8) (m : BitVec 23) :
    sign32 (pack32 s e m) = s := by
  apply BitVec.eq_of_toNat_eq
  rw [sign32_toNat, pack32_toNat]
  omega

@[simp] theorem exp32_pack32 (s : BitVec 1) (e : BitVec 8) (m : BitVec 23) :
    exp32 (pack32 s e m) = e := by
  apply BitVec.eq_of_toNat_eq
  rw [exp32_toNat, pack32_toNat]
  omega

@[simp] theorem mant32_pack32 (s : BitVec 1) (e : BitVec 8) (m : BitVec 23) :
    mant32 (pack32 s e m) = m := by
  apply BitVec.eq_of_toNat_eq
  rw [mant32_toNat, pack32_toNat]
  omega

@[simp] theorem pack32_fields (x : Bits32) : pack32 (sign32 x) (exp32 x) (mant32 x) = x := by
  apply BitVec.eq_of_toNat_eq
  rw [pack32_toNat, sign32_toNat, exp32_toNat, mant32_toNat]
  omega

theorem pack32_inj_iff (s : BitVec 1) (e : BitVec 8) (m : BitVec 23) (x : Bits32) :
    pack32 s e m = x ↔ s = sign32 x ∧ e = exp32 x ∧ m = mant32 x := by
  constructor
  · rintro rfl; simp
  · rintro ⟨rfl, rfl, rfl⟩; simp

/-! ## `pack64` -/

theorem pack64_toNat (s : BitVec 1) (e : BitVec 11) (m : BitVec 52) :
    (pack64 s e m).toNat = s.toNat * 2 ^ 63 + e.toNat * 2 ^ 52 + m.toNat :=
  Laws.toNat_append3_eq_add s e m

theorem sign64_toNat (x : Bits64) : (sign64 x).toNat = x.toNat / 2 ^ 63 % 2 ^ 1 :=
  Laws.toNat_slice x 63 1

theorem exp64_toNat (x : Bits64) : (exp64 x).toNat = x.toNat / 2 ^ 52 % 2 ^ 11 :=
  Laws.toNat_slice x 52 11

theorem mant64_toNat (x : Bits64) : (mant64 x).toNat = x.toNat / 2 ^ 0 % 2 ^ 52 :=
  Laws.toNat_slice x 0 52

@[simp] theorem sign64_pack64 (s : BitVec 1) (e : BitVec 11) (m : BitVec 52) :
    sign64 (pack64 s e m) = s := by
  apply BitVec.eq_of_toNat_eq
  rw [sign64_toNat, pack64_toNat]
  omega

@[simp] theorem exp64_pack64 (s : BitVec 1) (e : BitVec 11) (m : BitVec 52) :
    exp64 (pack64 s e m) = e := by
  apply BitVec.eq_of_toNat_eq
  rw [exp64_toNat, pack64_toNat]
  omega

@[simp] theorem mant64_pack64 (s : BitVec 1) (e : BitVec 11) (m : BitVec 52) :
    mant64 (pack64 s e m) = m := by
  apply BitVec.eq_of_toNat_eq
  rw [mant64_toNat, pack64_toNat]
  omega

@[simp] theorem pack64_fields (x : Bits64) : pack64 (sign64 x) (exp64 x) (mant64 x) = x := by
  apply BitVec.eq_of_toNat_eq
  rw [pack64_toNat, sign64_toNat, exp64_toNat, mant64_toNat]
  omega

theorem pack64_inj_iff (s : BitVec 1) (e : BitVec 11) (m : BitVec 52) (x : Bits64) :
    pack64 s e m = x ↔ s = sign64 x ∧ e = exp64 x ∧ m = mant64 x := by
  constructor
  · rintro rfl; simp
  · rintro ⟨rfl, rfl, rfl⟩; simp

/-! ## `packSingle` -/

theorem packSingle_toNat (l : BitVec 8) (s : BitVec 1) (m : BitVec 23) :
    (packSingle l s m).toNat = l.toNat * 2 ^ 24 + s.toNat * 2 ^ 23 + m.toNat :=
  Laws.toNat_append3_eq_add l s m

theorem singleL_toNat (x : Bits32) : (singleL x).toNat = x.toNat / 2 ^ 24 % 2 ^ 8 :=
  Laws.toNat_slice x 24 8

theorem singleS_toNat (x : Bits32) : (singleS x).toNat = x.toNat / 2 ^ 23 % 2 ^ 1 :=
  Laws.toNat_slice x 23 1

theorem singleM_toNat (x : Bits32) : (singleM x).toNat = x.toNat / 2 ^ 0 % 2 ^ 23 :=
  Laws.toNat_slice x 0 23

@[simp] theorem singleL_packSingle (l : BitVec 8) (s : BitVec 1) (m : BitVec 23) :
    singleL (packSingle l s m) = l := by
  apply BitVec.eq_of_toNat_eq
  rw [singleL_toNat, packSingle_toNat]
  omega

@[simp] theorem singleS_packSingle (l : BitVec 8) (s : BitVec 1) (m : BitVec 23) :
    singleS (packSingle l s m) = s := by
  apply BitVec.eq_of_toNat_eq
  rw [singleS_toNat, packSingle_toNat]
  omega

@[simp] theorem singleM_packSingle (l : BitVec 8) (s : BitVec 1) (m : BitVec 23) :
    singleM (packSingle l s m) = m := by
  apply BitVec.eq_of_toNat_eq
  rw [singleM_toNat, packSingle_toNat]
  omega

@[simp] theorem packSingle_fields (x : Bits32) : packSingle (singleL x) (singleS x) (singleM x) = x := by
  apply BitVec.eq_of_toNat_eq
  rw [packSingle_toNat, singleL_toNat, singleS_toNat, singleM_toNat]
  omega

theorem packSingle_inj_iff (l : BitVec 8) (s : BitVec 1) (m : BitVec 23) (x : Bits32) :
    packSingle l s m = x ↔ l = singleL x ∧ s = singleS x ∧ m = singleM x := by
  constructor
  · rintro rfl; simp
  · rintro ⟨rfl, rfl, rfl⟩; simp

/-! ## `packDouble` -/

theorem packDouble_toNat (l : BitVec 8) (s : BitVec 1) (f : BitVec 55) :
    (packDouble l s f).toNat = l.toNat * 2 ^ 56 + s.toNat * 2 ^ 55 + f.toNat :=
  Laws.toNat_append3_eq_add l s f

theorem doubleL_toNat (x : Bits64) : (doubleL x).toNat = x.toNat / 2 ^ 56 % 2 ^ 8 :=
  Laws.toNat_slice x 56 8

theorem doubleS_toNat (x : Bits64) : (doubleS x).toNat = x.toNat / 2 ^ 55 % 2 ^ 1 :=
  Laws.toNat_slice x 55 1

theorem doubleF_toNat (x : Bits64) : (doubleF x).toNat = x.toNat / 2 ^ 0 % 2 ^ 55 :=
  Laws.toNat_slice x 0 55

@[simp] theorem doubleL_packDouble (l : BitVec 8) (s : BitVec 1) (f : BitVec 55) :
    doubleL (packDouble l s f) = l := by
  apply BitVec.eq_of_toNat_eq
  rw [doubleL_toNat, packDouble_toNat]
  omega

@[simp] theorem doubleS_packDouble (l : BitVec 8) (s : BitVec 1) (f : BitVec 55) :
    doubleS (packDouble l s f) = s := by
  apply BitVec.eq_of_toNat_eq
  rw [doubleS_toNat, packDouble_toNat]
  omega

@[simp] theorem doubleF_packDouble (l : BitVec 8) (s : BitVec 1) (f : BitVec 55) :
    doubleF (packDouble l s f) = f := by
  apply BitVec.eq_of_toNat_eq
  rw [doubleF_toNat, packDouble_toNat]
  omega

@[simp] theorem packDouble_fields (x : Bits64) : packDouble (doubleL x) (doubleS x) (doubleF x) = x := by
  apply BitVec.eq_of_toNat_eq
  rw [packDouble_toNat, doubleL_toNat, doubleS_toNat, doubleF_toNat]
  omega

theorem packDouble_inj_iff (l : BitVec 8) (s : BitVec 1) (f : BitVec 55) (x : Bits64) :
    packDouble l s f = x ↔ l = doubleL x ∧ s = doubleS x ∧ f = doubleF x := by
  constructor
  · rintro rfl; simp
  · rintro ⟨rfl, rfl, rfl⟩; simp

/-! ## The stored mantissa -/

theorem storeMantissa_toNat (m : BitVec 52) : (storeMantissa m).toNat = m.toNat * 8 := by
  have h : (storeMantissa m).toNat = m.toNat * 2 ^ 3 + (0#3).toNat := Laws.toNat_append_eq_add m 0#3
  rw [h, BitVec.toNat_zero]
  omega

theorem loadMantissa_toNat (f : BitVec 55) : (loadMantissa f).toNat = f.toNat / 8 := by
  have h := f.isLt
  rw [loadMantissa, Laws.toNat_slice]
  omega

/-- Storing and reading back a mantissa loses nothing (43_double_codec.md R105). -/
@[simp] theorem loadMantissa_storeMantissa (m : BitVec 52) : loadMantissa (storeMantissa m) = m := by
  apply BitVec.eq_of_toNat_eq
  rw [loadMantissa_toNat, storeMantissa_toNat]
  omega

end Sys2Proof.Machine
end

