-- ==== Sys2Proof/Laws/State.lean ====
section
/-!
SUPPORT. One lemma for each field of State under each update of it.
-/

namespace Sys2Proof.Machine

variable (s : State) (r : Response) (w : ReqWord)

@[simp] theorem emit_params : (s.emit r).params = s.params := rfl
@[simp] theorem emit_requests : (s.emit r).requests = s.requests := rfl
@[simp] theorem emit_responses : (s.emit r).responses = s.responses ++ [r] := rfl

@[simp] theorem present_params : (s.present w).params = s.params := rfl
@[simp] theorem present_requests : (s.present w).requests = w :: s.requests.tail := rfl
@[simp] theorem present_responses : (s.present w).responses = s.responses := rfl

@[simp] theorem reset_params : State.reset.params = Params.defaults := rfl
@[simp] theorem reset_requests : State.reset.requests = [] := rfl
@[simp] theorem reset_responses : State.reset.responses = [] := rfl

@[simp] theorem okResponse_status (n : Len) (v : Data) : (okResponse n v).status = .ok := rfl
@[simp] theorem okResponse_outLen (n : Len) (v : Data) : (okResponse n v).outLen = n := rfl
@[simp] theorem okResponse_outData (n : Len) (v : Data) : (okResponse n v).outData = v := rfl

@[simp] theorem raise_status (e : ErrorKind) : (raise e).status = e.status := rfl
@[simp] theorem raise_outLen (e : ErrorKind) : (raise e).outLen = 0#4 := rfl
@[simp] theorem raise_outData (e : ErrorKind) : (raise e).outData = 0#64 := rfl

end Sys2Proof.Machine
end

