-- ==== Sys2Proof/Laws/Ops.lean ====
section
/-!
SUPPORT. What each shared operation can do, said once: fetching a request, answering one, the
length check, the operands as numbers; and that every meaning only answers.
-/

namespace Sys2Proof.Machine

/-! ## Fetching and answering -/

/-- A fetch that answers took the head of the host's list and changed nothing else. -/
theorem fetch_eq_some {s s' : State} {w : ReqWord} (h : s.fetch = some (w, s')) :
    s.requests = w :: s'.requests ∧ s'.params = s.params ∧ s'.responses = s.responses := by
  unfold State.fetch at h
  split at h
  · cases h
  · next hs => cases h; exact ⟨hs, rfl, rfl⟩

theorem fetch_nil {s : State} (h : s.requests = []) : s.fetch = none := by
  unfold State.fetch; rw [h]

theorem fetch_cons {s : State} {w : ReqWord} {rest : List ReqWord} (h : s.requests = w :: rest) :
    s.fetch = some (w, { s with requests := rest }) := by
  unfold State.fetch; rw [h]

/-- An answer that goes on appended its response and changed nothing else. -/
theorem answer_eq_next {s t : State} {r : Response} (h : answer r s = .next t) :
    t.params = s.params ∧ t.requests = s.requests ∧ t.responses = s.responses ++ [r] := by
  cases h
  exact ⟨rfl, rfl, rfl⟩

/-- A step that goes on ran the decoded head of the host's list. -/
theorem step_eq_next {s t : State} (h : step s = .next t) :
    ∃ w s', s.fetch = some (w, s') ∧ exec (decode w) s' = .next t := by
  unfold step at h
  split at h
  · cases h
  · next w s' hf => exact ⟨w, s', hf, h⟩

/-! ## The length check -/

theorem checkLength_of_eq {width inLen : Len} {r : Response} (h : inLen = width) :
    checkLength width inLen r = r := if_pos h

theorem checkLength_of_ne {width inLen : Len} {r : Response} (h : inLen ≠ width) :
    checkLength width inLen r = raise .lengthError := if_neg h

/-! ## Operands and results as numbers -/

theorem low16_toNat (d : Data) : (low16 d).toNat = d.toNat / 2 ^ 0 % 2 ^ 16 := Laws.toNat_slice d 0 16
theorem low32_toNat (d : Data) : (low32 d).toNat = d.toNat / 2 ^ 0 % 2 ^ 32 := Laws.toNat_slice d 0 32

theorem lane_toNat (d : Data) (i : Nat) : (lane d i).toNat = d.toNat / 2 ^ (8 * i) % 2 ^ 8 :=
  Laws.toNat_slice d (8 * i) 8

theorem zext16_toNat (v : BitVec 16) : (zext16 v).toNat = v.toNat := by
  have h := v.isLt
  rw [zext16, BitVec.toNat_setWidth]
  omega

theorem zext32_toNat (v : Bits32) : (zext32 v).toNat = v.toNat := by
  have h := v.isLt
  rw [zext32, BitVec.toNat_setWidth]
  omega

@[simp] theorem low16_zext16 (v : BitVec 16) : low16 (zext16 v) = v := by
  apply BitVec.eq_of_toNat_eq
  rw [low16_toNat, zext16_toNat]
  omega

@[simp] theorem low32_zext32 (v : Bits32) : low32 (zext32 v) = v := by
  apply BitVec.eq_of_toNat_eq
  rw [low32_toNat, zext32_toNat]
  omega

end Sys2Proof.Machine
end

