-- ==== Sys2Proof/Laws/Request.lean ====
section
/-!
SUPPORT. The fields of a request word (Decode.lean): each as a number, each of an assembled word,
and each word as the assembly of its fields; what `decode` answers for each operation select.
-/

namespace Sys2Proof

theorem packReq_toNat (op : BitVec 3) (inLen : Len) (inData : Data) :
    (packReq op inLen inData).toNat
      = op.toNat * 2 ^ 68 + inLen.toNat * 2 ^ 64 + inData.toNat :=
  Laws.toNat_append3_eq_add op inLen inData

theorem reqOp_toNat (w : ReqWord) : (reqOp w).toNat = w.toNat / 2 ^ 68 % 2 ^ 3 :=
  Laws.toNat_slice w 68 3

theorem reqInLen_toNat (w : ReqWord) : (reqInLen w).toNat = w.toNat / 2 ^ 64 % 2 ^ 4 :=
  Laws.toNat_slice w 64 4

theorem reqInData_toNat (w : ReqWord) : (reqInData w).toNat = w.toNat / 2 ^ 0 % 2 ^ 64 :=
  Laws.toNat_slice w 0 64

@[simp] theorem reqOp_packReq (op : BitVec 3) (inLen : Len) (inData : Data) :
    reqOp (packReq op inLen inData) = op := by
  apply BitVec.eq_of_toNat_eq
  rw [reqOp_toNat, packReq_toNat]
  omega

@[simp] theorem reqInLen_packReq (op : BitVec 3) (inLen : Len) (inData : Data) :
    reqInLen (packReq op inLen inData) = inLen := by
  apply BitVec.eq_of_toNat_eq
  rw [reqInLen_toNat, packReq_toNat]
  omega

@[simp] theorem reqInData_packReq (op : BitVec 3) (inLen : Len) (inData : Data) :
    reqInData (packReq op inLen inData) = inData := by
  apply BitVec.eq_of_toNat_eq
  rw [reqInData_toNat, packReq_toNat]
  omega

@[simp] theorem packReq_fields (w : ReqWord) :
    packReq (reqOp w) (reqInLen w) (reqInData w) = w := by
  apply BitVec.eq_of_toNat_eq
  rw [packReq_toNat, reqOp_toNat, reqInLen_toNat, reqInData_toNat]
  omega

/-- The eight operation selects, one case each. -/
theorem op_cases (op : BitVec 3) :
    op = 0#3 ∨ op = 1#3 ∨ op = 2#3 ∨ op = 3#3 ∨ op = 4#3 ∨ op = 5#3 ∨ op = 6#3 ∨ op = 7#3 := by
  revert op
  decide

theorem decode_of_op0 (w : ReqWord) (h : reqOp w = 0#3) :
    decode w = .enci (reqInLen w) (reqInData w) := by
  unfold decode; rw [h]; rfl

theorem decode_of_op1 (w : ReqWord) (h : reqOp w = 1#3) :
    decode w = .encs (reqInLen w) (reqInData w) := by
  unfold decode; rw [h]; rfl

theorem decode_of_op2 (w : ReqWord) (h : reqOp w = 2#3) :
    decode w = .encd (reqInLen w) (reqInData w) := by
  unfold decode; rw [h]; rfl

theorem decode_of_op3 (w : ReqWord) (h : reqOp w = 3#3) :
    decode w = .op3 (reqInLen w) (reqInData w) := by
  unfold decode; rw [h]; rfl

theorem decode_of_op4 (w : ReqWord) (h : reqOp w = 4#3) :
    decode w = .deci (reqInLen w) (reqInData w) := by
  unfold decode; rw [h]; rfl

theorem decode_of_op5 (w : ReqWord) (h : reqOp w = 5#3) :
    decode w = .decs (reqInLen w) (reqInData w) := by
  unfold decode; rw [h]; rfl

theorem decode_of_op6 (w : ReqWord) (h : reqOp w = 6#3) :
    decode w = .decd (reqInLen w) (reqInData w) := by
  unfold decode; rw [h]; rfl

theorem decode_of_op7 (w : ReqWord) (h : reqOp w = 7#3) :
    decode w = .op7 (reqInLen w) (reqInData w) := by
  unfold decode; rw [h]; rfl

end Sys2Proof
end

