-- ==== Sys2Proof/Laws/PerInstr.lean ====
section
/-!
SUPPORT. OpSelect: the request word of an instruction has the operation select of its row of
spec/opcode_table.json in bits 70:68, and its two other fields where 30_encoding.md R30 puts them.
-/

namespace Sys2Proof.Laws.OpSelect

/-- The column `op_value` of spec/opcode_table.json (30_encoding.md R33). -/
def opValue : Instr → BitVec 3
  | .enci _ _ => 0#3
  | .encs _ _ => 1#3
  | .encd _ _ => 2#3
  | .op3 _ _ => 3#3
  | .deci _ _ => 4#3
  | .decs _ _ => 5#3
  | .decd _ _ => 6#3
  | .op7 _ _ => 7#3

/-- The field `in_len` of the request. -/
def lenOf : Instr → Len
  | .enci l _ | .encs l _ | .encd l _ | .op3 l _ | .deci l _ | .decs l _ | .decd l _ | .op7 l _ => l

/-- The field `in_data` of the request. -/
def dataOf : Instr → Data
  | .enci _ d | .encs _ d | .encd _ d | .op3 _ d | .deci _ d | .decs _ d | .decd _ d | .op7 _ d => d

def Statement (i : Instr) : Prop :=
  reqOp (encode i) = opValue i ∧ reqInLen (encode i) = lenOf i ∧ reqInData (encode i) = dataOf i

theorem enci (l : Len) (d : Data) : Statement (.enci l d) := by
  simp [Statement, encode, opValue, lenOf, dataOf]

theorem encs (l : Len) (d : Data) : Statement (.encs l d) := by
  simp [Statement, encode, opValue, lenOf, dataOf]

theorem encd (l : Len) (d : Data) : Statement (.encd l d) := by
  simp [Statement, encode, opValue, lenOf, dataOf]

theorem op3 (l : Len) (d : Data) : Statement (.op3 l d) := by
  simp [Statement, encode, opValue, lenOf, dataOf]

theorem deci (l : Len) (d : Data) : Statement (.deci l d) := by
  simp [Statement, encode, opValue, lenOf, dataOf]

theorem decs (l : Len) (d : Data) : Statement (.decs l d) := by
  simp [Statement, encode, opValue, lenOf, dataOf]

theorem decd (l : Len) (d : Data) : Statement (.decd l d) := by
  simp [Statement, encode, opValue, lenOf, dataOf]

theorem op7 (l : Len) (d : Data) : Statement (.op7 l d) := by
  simp [Statement, encode, opValue, lenOf, dataOf]

end Sys2Proof.Laws.OpSelect
end

