-- ==== Sys2Proof/Laws/Run.lean ====
section
/-!
SUPPORT. A run, one step at a time.
-/

namespace Sys2Proof.Machine

theorem run_succ (M : Host.Core) (n : Nat) (s : M.State) :
    M.run (n + 1) s =
      match M.step s with
      | .next t => M.run n t
      | .fault r => .fault r
      | .refused r => .refused r := rfl

theorem run_zero (s : State) : Host.Core.run Sys2Proof.core 0 s = .next s := rfl

/-- A run whose first step goes on is the rest of the run from the state it leaves. -/
theorem run_succ_of_next {s t : State} (h : step s = .next t) (n : Nat) :
    Host.Core.run Sys2Proof.core (n + 1) s = Host.Core.run Sys2Proof.core n t := by
  have hs : Sys2Proof.core.step s = .next t := h
  exact (run_succ Sys2Proof.core n s).trans (by rw [hs])

/-- A run whose first step stops with a fault stops with it. -/
theorem run_succ_of_fault {s : State} {r : Fault} (h : step s = .fault r) (n : Nat) :
    Host.Core.run Sys2Proof.core (n + 1) s = .fault r := by
  have hs : Sys2Proof.core.step s = .fault r := h
  exact (run_succ Sys2Proof.core n s).trans (by rw [hs])

end Sys2Proof.Machine
end

