-- ==== Sys2Proof/Machine/Text.lean ====
section
/-!
DEFINITION. The notation for requests and responses (30_encoding.md R39 to R41): upper-case hex,
bytes separated by one space, low byte first. It is written, never read; nothing of the machine
depends on it.
-/

namespace Sys2Proof.Machine

/-- An upper-case hex digit. -/
def hexDigit (n : Nat) : Char := "0123456789ABCDEF".toList.getD n '0'

/-- The low `n` hex digits of a number, the most significant first. -/
def hexDigits : Nat → Nat → List Char
  | 0, _ => []
  | n + 1, v => hexDigits n (v / 16) ++ [hexDigit (v % 16)]

/-- A hex number of `n` digits, `0x...`. -/
def hexNumber (n v : Nat) : String := "0x" ++ String.ofList (hexDigits n v)

/-- Hex bytes separated by one space, each with a space before it. -/
def hexBytes (bs : List Byte) : String :=
  bs.foldl (fun acc b => acc ++ " " ++ String.ofList (hexDigits 2 b.toNat)) ""

/-- The mnemonic of an operation select (30_encoding.md R33); the reserved ones are written OP3
and OP7 (R39). -/
def mnemonicOf (op : BitVec 3) : String :=
  match op.toNat with
  | 0 => "ENCI"
  | 1 => "ENCS"
  | 2 => "ENCD"
  | 3 => "OP3"
  | 4 => "DECI"
  | 5 => "DECS"
  | 6 => "DECD"
  | _ => "OP7"

/-- How many bytes the operand of a select has: 2, 4 or 8 by its codec, `op[1:0]`
(30_encoding.md R33). -/
def operandBytes (op : BitVec 3) : Nat := 2 ^ ((op.extractLsb' 0 2).toNat + 1)

/-- One line as text (30_encoding.md R39, R40). -/
def Line.text (l : Line) : String :=
  mnemonicOf l.op
    ++ (match l.len with
        | none => ""
        | some n => " len=" ++ toString n.toNat)
    ++ (match l.source with
        | .number v => " " ++ hexNumber (2 * operandBytes l.op) v.toNat
        | .bytes bs => hexBytes bs
        | .result k => " $" ++ toString k)

/-- A response to a request with the given select, as text (30_encoding.md R39): bytes for an
encode, a number for a decode. -/
def Response.text (op : BitVec 3) (r : Response) : String :=
  match r.status with
  | .ok =>
    "-> OK " ++ toString r.outLen.toNat ++ ":"
      ++ (if isEncodeOp op then hexBytes r.bytes
          else " " ++ hexNumber (2 * r.outLen.toNat) r.outData.toNat)
  | .lengthError => "-> LENGTH_ERROR"
  | .illegalOp => "-> ILLEGAL_OP"

end Sys2Proof.Machine
end

