-- ==== Sys2Proof/Tests/Slice0.lean ====
section
/-!
SUPPORT. Tests. Every expected result is printed in the spec (mostly 95_test_vectors.md) or worked
out by hand from a rule named beside it. First the checks that refuse, then the decoder, one or two
steps for each instruction, the five parameters, and last, for every statement of
Certificates/Slice0/Obligations.lean that has hypotheses, operands that meet them.
-/

namespace Sys2Proof.Tests

open Sys2Proof Sys2Proof.Machine

/-! ## The checks refuse -/

theorem test_wf_defaults : Params.defaults.wf = true := by decide

/-- An infinity is no NaN (00_scope.md R8). -/
theorem test_wf_refuses_infinity32 :
    (Params.wf { Params.defaults with hostQnan32 := 0x7F800000#32 }) = false := by decide

theorem test_wf_refuses_infinity64 :
    (Params.wf { Params.defaults with hostQnan64 := 0xFFF0000000000000#64 }) = false := by decide

/-- Any NaN may be HOST_QNAN32, a signalling one with its sign set too (00_scope.md R8). -/
theorem test_wf_takes_any_nan :
    (Params.wf { Params.defaults with hostQnan32 := 0xFF800001#32 }) = true := by decide

theorem test_isOperation_refuses_op3 : (Instr.op3 2#4 0#64).isOperation = false := by decide

theorem test_isOperation_refuses_op7 : (Instr.op7 8#4 0#64).isOperation = false := by decide

/-- An error with data is no response (60_exceptions.md R121). -/
theorem test_legal_refuses_error_with_data :
    (Response.mk .lengthError 0#4 1#64).legal = false := by decide

theorem test_legal_refuses_illegalOp_with_length :
    (Response.mk .illegalOp 2#4 0#64).legal = false := by decide

/-- An integer is zero-extended on the bus, never sign-extended (30_encoding.md R37). -/
theorem test_legal_refuses_sign_extension :
    (Response.mk .ok 2#4 0xFFFFFFFFFFFFFFFE#64).legal = false := by decide

theorem test_legal_refuses_length_3 : (Response.mk .ok 3#4 0#64).legal = false := by decide

theorem test_decodeWord_refuses_bit_71 :
    decodeWord (2 ^ 71) = .error .widerThanRequest := by rfl

/-! ## Decoding: words of 30_encoding.md R33, bit by bit `op`, `in_len`, `in_data` -/

theorem test_decode_enci : decode (0b000#3 ++ 0b1111#4 ++ 0x0000000000001234#64)
    = .enci 15#4 0x1234#64 := by decide

theorem test_decode_encs : decode (0b001#3 ++ 0b1001#4 ++ 0xDEADBEEF3F800000#64)
    = .encs 9#4 0xDEADBEEF3F800000#64 := by decide

theorem test_decode_encd : decode (0b010#3 ++ 0b0000#4 ++ 0x47D02CBFD7656218#64)
    = .encd 0#4 0x47D02CBFD7656218#64 := by decide

theorem test_decode_op3 : decode (0b011#3 ++ 0b0010#4 ++ 0x000000000000FFFE#64)
    = .op3 2#4 0xFFFE#64 := by decide

theorem test_decode_deci : decode (0b100#3 ++ 0b0010#4 ++ 0xAAAAAAAAAAAA1234#64)
    = .deci 2#4 0xAAAAAAAAAAAA1234#64 := by decide

theorem test_decode_decs : decode (0b101#3 ++ 0b0100#4 ++ 0xFFFFFFFF81000000#64)
    = .decs 4#4 0xFFFFFFFF81000000#64 := by decide

theorem test_decode_decd : decode (0b110#3 ++ 0b1000#4 ++ 0x8100000000000000#64)
    = .decd 8#4 0x8100000000000000#64 := by decide

theorem test_decode_op7 : decode (0b111#3 ++ 0b1000#4 ++ 0xFFFFFFFFFFFFFFFF#64)
    = .op7 8#4 0xFFFFFFFFFFFFFFFF#64 := by decide

/-- The 18 hex digits of 95_test_vectors.md: first digit `op`, second `in_len`. -/
theorem test_decodeTableWord : decodeTableWord 72 0x53DEADBEEF3F800000
    = some (.decs 3#4 0xDEADBEEF3F800000#64) := by rfl

theorem test_encode : encode (.decd 8#4 0x8100000000000000#64) = 0x688100000000000000#71 := by
  decide

/-! ## One step: request and response words as 95_test_vectors.md prints them -/

/-- The response word of one request of an instance with parameters `p`. -/
def ask (p : Params) (w : Nat) : Option RspWord :=
  match step ({ State.reset with params := p }.withFetchWord 72 w) with
  | .next t => t.responses.getLast?.map Response.pack
  | .fault _ => none
  | .refused _ => none

/-- Section 2.4: junk above bit 15. -/
theorem test_enci_ignores_high_bits :
    ask .defaults 0x00FFFFFFFFFFFF8000 = some 0x020000000000008000#70 := by decide

/-- V-ENCI: 4660 goes out low byte first. -/
theorem test_enci_bytes : (enci 0x1234#16).bytes = [0x34#8, 0x12#8] := by decide

/-- V-ENCS: `in_len` and the upper bits are ignored. -/
theorem test_encs_one :
    ask .defaults 0x19DEADBEEF3F800000 = some 0x040000000081000000#70 := by decide

/-- V-ENCS: `2^126` is the first to saturate. -/
theorem test_encs_saturates :
    ask .defaults 0x10000000007E800000 = some 0x0400000000FF7FFFFF#70 := by decide

/-- V-ENCD: pi, its mantissa shifted by three. -/
theorem test_encd_pi :
    ask .defaults 0x20400921FB54442D18 = some 0x0882490FDAA22168C0#70 := by decide

/-- P6 line 1: just above `-2^-128`. -/
theorem test_encd_flushes :
    ask .defaults 0x20B7EFFFFFFFFFFFFF = some 0x080080000000000000#70 := by decide

/-- Section 2.4: a reserved select with a good DECI operand. -/
theorem test_op3 : ask .defaults 0x32000000000000FFFE = some 0x200000000000000000#70 := by decide

/-- V-DECI: the upper lanes are ignored. -/
theorem test_deci_ignores_upper_lanes :
    ask .defaults 0x42AAAAAAAAAAAA1234 = some 0x020000000000001234#70 := by decide

/-- V-DECI: three bytes are not truncated. -/
theorem test_deci_three_bytes :
    ask .defaults 0x43000000000000FFFE = some 0x100000000000000000#70 := by decide

/-- V-DECS: the lanes 4 to 7 are ignored. -/
theorem test_decs_one :
    ask .defaults 0x54FFFFFFFF81000000 = some 0x04000000003F800000#70 := by decide

/-- V-DECS: any mantissa that is not zero is an infinity, with the pattern's sign. -/
theorem test_decs_infinity :
    ask .defaults 0x5400000000FF800001 = some 0x0400000000FF800000#70 := by decide

/-- V-DECD: padding bits `111` dropped, no rounding. -/
theorem test_decd_padding :
    ask .defaults 0x6882490FDAA22168C7 = some 0x08400921FB54442D18#70 := by decide

/-- V-DECD: only a padding bit set is an infinity. -/
theorem test_decd_infinity :
    ask .defaults 0x68FF80000000000004 = some 0x08FFF0000000000000#70 := by decide

/-- Section 2.4: `op = 7`. -/
theorem test_op7 : ask .defaults 0x78FFFFFFFFFFFFFFFF = some 0x200000000000000000#70 := by decide

/-- With no request presented there is no operation (70_reset_and_hazards.md R141). -/
theorem test_no_request : step State.reset = .fault .noRequest := rfl

/-! ## The parameters -/

/-- P5 with `NAN_SIGN = 1`, lines 1 and 4. -/
theorem test_nanSign :
    ask { Params.defaults with nanSign := 1#1 } 0x1000000000FFC00001
      = some 0x0400000000FF800000#70 ∧
    ask { Params.defaults with nanSign := 1#1 } 0x207FF0000000000001
      = some 0x08FF80000000000000#70 := by decide

/-- P6 with `DBL_UNDERFLOW_AT_L0 = false`, line 1. -/
theorem test_dblUnderflowAtL0 :
    ask { Params.defaults with dblUnderflowAtL0 := false } 0x20B7EFFFFFFFFFFFFF
      = some 0x0800FFFFFFFFFFFFF8#70 := by decide

/-- V-DECS: `56 34 12 01` under the policy `wrap`, `00 00 80 01` under the policy `zero`. -/
theorem test_sglDecL1 :
    ask .defaults 0x540000000001123456 = some 0x04000000007F923456#70 ∧
    ask { Params.defaults with sglDecL1 := .zero } 0x540000000001800000
      = some 0x040000000080000000#70 := by decide

/-- HOST_QNAN32 and HOST_QNAN64 are what DECS and DECD return for a legacy NaN
(42_single_codec.md R81, 43_double_codec.md R101). -/
theorem test_hostQnan :
    ask { Params.defaults with hostQnan32 := 0xFFC00000#32 } 0x5400000000FF800000
      = some 0x0400000000FFC00000#70 ∧
    ask { Params.defaults with hostQnan64 := 0x7FF8000000000001#64 } 0x68FF00000000000000
      = some 0x087FF8000000000001#70 := by decide

/-! ## Formats, notation and programs -/

/-- The special patterns of 40_data_formats.md R57 to R59 for single. -/
theorem test_special_single :
    zeroSingle 1#1 = 0x00800000#32 ∧ ovfSingle 0#1 = 0xFF7FFFFF#32 ∧
      ovfSingle 1#1 = 0xFFFFFFFF#32 ∧ nanSingle .defaults = 0xFF000000#32 := by decide

/-- The special patterns of 40_data_formats.md R57 to R59 for double. -/
theorem test_special_double :
    zeroDouble 1#1 = 0x0080000000000000#64 ∧ ovfDouble 0#1 = 0xFF7FFFFFFFFFFFFF#64 ∧
      ovfDouble 1#1 = 0xFFFFFFFFFFFFFFFF#64 ∧ nanDouble .defaults = 0xFF00000000000000#64 := by
  decide

/-- `EXP_BIAS_OFFSET` is (legacy bias) - (host bias) + 1 (40_data_formats.md R60). -/
theorem test_offsets :
    offSingle = legacyBias - hostBias32 + 1 ∧ offDouble = legacyBias - hostBias64 + 1 := by decide

/-- The classes of the decoders (40_data_formats.md R62): 1.0, and a pattern of padding alone. -/
theorem test_classes :
    classSingle 0x81000000#32 = .finite ∧ classDouble 0xFF00000000000001#64 = .infinity := by
  decide

/-- Lane 0 is the low byte (20_memory.md R21). -/
theorem test_lanes :
    lanesOf [0x00#8, 0x00#8, 0x48#8, 0x87#8] = 0x87480000#64 ∧ lane 0x87480000#64 3 = 0x87#8 := by
  decide

/-- P4 line 6: a length forced on a result fed back. -/
theorem test_line_request :
    (Line.mk 4#3 (.result 1) (some 2#4)).request [encs .defaults 0x3F800000#32]
      = some 0x420000000081000000#71 := by decide

theorem test_line_text :
    (Line.mk 4#3 (.result 3) (some 2#4)).text = "DECI len=2 $3" := by decide

/-- P1 line 1. -/
theorem test_response_text :
    (encs .defaults 0x42C80000#32).text 1#3 = "-> OK 4: 00 00 48 87" := by decide

/-! ## Operands that meet the hypotheses of the statements -/

/-- A machine of the default parameters with these requests presented. -/
def host (ws : List ReqWord) : State := { State.reset with requests := ws }

/-- `ENCS 0x3F800000`. -/
def good : ReqWord := 0x10000000003F800000#71

/-- `DECS 00 00 81`, three bytes (P3 line 1). -/
def bad : ReqWord := 0x530000000000810000#71

/-- StepKeepsTheInvariant: a state with a response already produced, and a step that goes on. -/
theorem witness_StepKeepsTheInvariant :
    ((host [good]).emit (raise .lengthError)).inv = true ∧
      step ((host [good]).emit (raise .lengthError))
        = .next (((host []).emit (raise .lengthError)).emit
            ⟨.ok, 4#4, 0x0000000081000000#64⟩) :=
  ⟨by decide, rfl⟩

/-- StepTakesOneRequestAndAddsOneResponse, StepRunsTheDecodedRequest and
StepAnswersByTheOperationMap. -/
theorem witness_requests : (host [good, bad]).requests = good :: [bad] := rfl

/-- ResponseDependsOnRequestAndParametersOnly: the histories and the futures differ. -/
theorem witness_ResponseDependsOnRequestAndParametersOnly :
    (host [good]).requests = good :: [] ∧
      ((host [good, bad]).emit (raise .illegalOp)).requests = good :: [bad] ∧
      (host [good]).params = ((host [good, bad]).emit (raise .illegalOp)).params := by decide

/-- RunAnswersEveryRequestInOrder and the second clause of RunStopsOnlyPastTheLastRequest, at
their largest number of steps. -/
theorem witness_run_within : 2 ≤ (host [good, bad]).requests.length := by decide

/-- The first clause of RunStopsOnlyPastTheLastRequest, at its smallest number of steps. -/
theorem witness_run_past : (host [good, bad]).requests.length < 3 := by decide

theorem witness_ReorderedRequestsGetTheSameResponses :
    (host [good, bad]).params = (host [bad, good]).params ∧
      (host [good, bad]).requests.Perm (host [bad, good]).requests ∧
      (host [good, bad]).responses = [] ∧ (host [bad, good]).responses = [] :=
  ⟨rfl, List.Perm.swap _ _ _, rfl, rfl⟩

theorem witness_FailedRequestLeavesNoTrace :
    (host [bad, good]).requests = bad :: good :: [] ∧ (host [good]).requests = good :: [] ∧
      (host [bad, good]).params = (host [good]).params ∧
      (respond (host [bad, good]).params bad).status ≠ .ok := by decide

/-- MaskedSelectBitsDecideTheOperation: a word for each of its eight select values. -/
theorem witness_MaskedSelectBits :
    ((List.range 8).map fun op =>
        packReq (BitVec.ofNat 3 op) 5#4 7#64 &&& 0x700000000000000000#71)
      = (List.range 8).map fun op => BitVec.ofNat 71 (op * 2 ^ 68) := by decide

/-- WrongLengthAnswersLengthError: one length above and one below each width. -/
theorem witness_WrongLength :
    (1#4 : Len) ≠ 2#4 ∧ (3#4 : Len) ≠ 2#4 ∧ (3#4 : Len) ≠ 4#4 ∧ (5#4 : Len) ≠ 4#4 ∧
      (7#4 : Len) ≠ 8#4 ∧ (9#4 : Len) ≠ 8#4 := by decide

/-- StatusFollowsTheOrderOfTests. -/
theorem witness_StatusFollowsTheOrderOfTests :
    (host [packReq 6#3 4#4 0x81000000#64]).requests = packReq 6#3 4#4 0x81000000#64 :: [] := rfl

/-- IgnoredBitsDoNotMatter: two data words that differ in the first ignored bit, and a wrong
length, for each width. -/
theorem witness_IgnoredBits :
    (0x0FFFE#64 : Data).toNat % 2 ^ 16 = (0x1FFFE#64 : Data).toNat % 2 ^ 16 ∧
      (0x081000000#64 : Data).toNat % 2 ^ 32 = (0x181000000#64 : Data).toNat % 2 ^ 32 ∧
      (3#4 : Len) ≠ 2#4 ∧ (5#4 : Len) ≠ 4#4 ∧ (9#4 : Len) ≠ 8#4 := by decide

/-- ParametersMatterOnlyInTheirCases: for each clause a pattern and a pair of parameter sets that
differ in every parameter the clause leaves free. -/
theorem witness_ParametersMatter :
    class32 0x7F800000#32 ≠ .nan ∧
      (class64 0x7FF0000000000001#64 = .nan ∧ (Params.defaults).nanSign =
        (Params.mk 0#1 0xFFC00000#32 0xFFF8000000000000#64 .zero false).nanSign) ∧
      (class64 0x37F0000000000000#64 ≠ .nan ∧ (exp64 0x37F0000000000000#64).toNat ≠ 894) ∧
      (class64 0x37DFFFFFFFFFFFFF#64 ≠ .nan ∧ (exp64 0x37DFFFFFFFFFFFFF#64).toNat ≠ 894) ∧
      (classSingle 0xFF800000#32 = .nan ∧ (Params.defaults).hostQnan32 =
        (Params.mk 1#1 0x7FC00000#32 0xFFF8000000000000#64 .zero false).hostQnan32) ∧
      (classSingle 0x02000000#32 ≠ .nan ∧ (singleL 0x02000000#32).toNat ≠ 1) ∧
      (classSingle 0x00FFFFFF#32 ≠ .nan ∧ (singleL 0x00FFFFFF#32).toNat ≠ 1) ∧
      classDouble 0xFF00000000000001#64 ≠ .nan := by decide

/-- ByteSequencesAreLittleEndian, last clause: the largest number of three bytes. -/
theorem witness_ByteSequences : 0xFFFFFF < 2 ^ (8 * 3) := by decide

/-- PresentedSequenceIsAcceptedAtExactLengthOnly and PresentedSequenceIsReadAsItsWord: a sequence
of each width, the lanes above it full. -/
theorem witness_presents_widths :
    presents 2#4 0xAAAAAAAAAAAAFFFE#64 [0xFE#8, 0xFF#8] = true ∧
      presents 4#4 0xFFFFFFFF81000000#64 [0x00#8, 0x00#8, 0x00#8, 0x81#8] = true ∧
      presents 8#4 0x8100000000000000#64 [0#8, 0#8, 0#8, 0#8, 0#8, 0#8, 0#8, 0x81#8] = true := by
  decide

/-- The same: no byte at all, and eighteen bytes, whose length is limited to 15. -/
theorem witness_presents_ends :
    presents 0#4 0xFFFFFFFFFFFFFFFF#64 [] = true ∧
      presents 15#4 0x0101010101010101#64 (List.replicate 18 1#8) = true := by decide

/-- Int16ValuesAreTwosComplement: both ends of the range (V-ENCI). -/
theorem witness_Int16Values :
    valueInt16 0x8000#16 = -32768 ∧ valueInt16 0x7FFF#16 = 32767 := by decide

/-- SingleHostRoundTrip, clause by clause, and SingleSaturationIsLossy: the last exponent that is
kept and the first that saturates among them. -/
theorem witness_SingleHostRoundTrip :
    class32 0x80000000#32 = .zero ∧ class32 0x007FFFFF#32 = .subnormal ∧
      class32 0xFF800000#32 = .infinity ∧
      (class32 0x7E7FFFFF#32 = .normal ∧ (exp32 0x7E7FFFFF#32).toNat = 252) ∧
      (class32 0x7E800000#32 = .normal ∧ (exp32 0x7E800000#32).toNat = 253) ∧
      (class32 0x7F7FFFFF#32 = .normal ∧ (exp32 0x7F7FFFFF#32).toNat = 254) ∧
      class32 0x7F800001#32 = .nan := by decide

/-- SingleNaNsBecomeOnePattern and DoubleNaNsBecomeOnePattern; the first conjunct is also the
hypothesis of SingleLegacyRoundTrip and DoubleLegacyRoundTrip. -/
theorem witness_NaNs :
    Params.defaults.wf = true ∧ class32 0xFFC00001#32 = .nan ∧
      class64 0x7FF0000000000001#64 = .nan := by decide

/-- SingleSaturatesFromTwoToThe126: the values on both sides of the boundary. -/
theorem witness_SingleSaturates :
    (∃ v, value32 0x7E7FFFFF#32 = some v) ∧ (∃ v, value32 0x7E800000#32 = some v) :=
  ⟨⟨_, rfl⟩, ⟨_, rfl⟩⟩

/-- DoubleHostRoundTrip, clause by clause, and DoubleSaturationIsLossy: the exponents on both
sides of both boundaries among them. -/
theorem witness_DoubleHostRoundTrip :
    class64 0x8000000000000000#64 = .zero ∧ class64 0xFFF0000000000000#64 = .infinity ∧
      (class64 0x37F0000000000000#64 = .normal ∧ (exp64 0x37F0000000000000#64).toNat = 895) ∧
      (class64 0x47CFFFFFFFFFFFFF#64 = .normal ∧ (exp64 0x47CFFFFFFFFFFFFF#64).toNat = 1148) ∧
      (class64 0x47D0000000000000#64 = .normal ∧ (exp64 0x47D0000000000000#64).toNat = 1149) ∧
      (class64 0x37EFFFFFFFFFFFFF#64 = .normal ∧ (exp64 0x37EFFFFFFFFFFFFF#64).toNat = 894) ∧
      class64 0x000FFFFFFFFFFFFF#64 = .subnormal ∧ class64 0x7FF8000000000000#64 = .nan := by
  decide

/-- DoubleZerosKeepTheirSignAndUnderflowJoinsThem, last clause: a subnormal, and the last exponent
that is flushed under either value of the parameter. -/
theorem witness_DoubleUnderflow :
    (class64 0x8000000000000001#64 = .subnormal ∧
        underflow .defaults ((exp64 0x8000000000000001#64).toNat - 894) = true) ∧
      (class64 0x37EFFFFFFFFFFFFF#64 = .normal ∧
        underflow .defaults ((exp64 0x37EFFFFFFFFFFFFF#64).toNat - 894) = true) ∧
      (class64 0x37DFFFFFFFFFFFFF#64 = .normal ∧
        underflow { Params.defaults with dblUnderflowAtL0 := false }
          ((exp64 0x37DFFFFFFFFFFFFF#64).toNat - 894) = true) := by decide

/-- DoubleThresholdsInMagnitude: the values on both sides of each boundary, and both values of the
parameter. -/
theorem witness_DoubleThresholds :
    (∃ v, value64 0x47CFFFFFFFFFFFFF#64 = some v) ∧ (∃ v, value64 0x47D0000000000000#64 = some v) ∧
      (∃ v, value64 0x37EFFFFFFFFFFFFF#64 = some v) ∧
      (∃ v, value64 0x37F0000000000000#64 = some v) ∧
      (∃ v, value64 0x37E0000000000000#64 = some v) ∧
      Params.defaults.dblUnderflowAtL0 = true ∧
      { Params.defaults with dblUnderflowAtL0 := false }.dblUnderflowAtL0 = false :=
  ⟨⟨_, rfl⟩, ⟨_, rfl⟩, ⟨_, rfl⟩, ⟨_, rfl⟩, ⟨_, rfl⟩, rfl, rfl⟩

/-- DecodingKeepsTheValue: the two ends of the range of `L` for each format. -/
theorem witness_DecodingKeepsTheValue :
    (singleL 0x03000000#32).toNat = 3 ∧ (singleL 0xFEFFFFFF#32).toNat = 254 ∧
      (doubleL 0x0100000000000000#64).toNat = 1 ∧ (doubleL 0xFEFFFFFFFFFFFFFF#64).toNat = 254 := by
  decide

/-- EncodingKeepsTheValueInRange: the two ends of the range of `e` for each format. -/
theorem witness_EncodingKeepsTheValueInRange :
    (exp32 0x00800000#32).toNat = 1 ∧ (exp32 0x7E7FFFFF#32).toNat = 252 ∧
      (exp64 0x37F0000000000000#64).toNat = 895 ∧ (exp64 0x47CFFFFFFFFFFFFF#64).toNat = 1148 := by
  decide

/-- ProgramLinesAreARunOfTheMachine: P1 lines 1 and 2. -/
theorem witness_ProgramLines :
    runLines .defaults
        [⟨1#3, .number 0x42C80000#64, none⟩, ⟨5#3, .result 1, none⟩] []
      = some [⟨.ok, 4#4, 0x87480000#64⟩, ⟨.ok, 4#4, 0x42C80000#64⟩] := by decide

end Sys2Proof.Tests
end

section
/-!
SUPPORT. Where the parameters of 00_scope.md R8 enter the four codec patterns: each pattern is the
same for two parameter sets that agree on the cases in which the pattern reads a parameter.
-/

namespace Sys2Proof.Machine

/-! ## The NaN classes by their fields (40_data_formats.md R53, R62) -/

theorem class32_eq_nan_iff {x : Bits32} :
    class32 x = .nan ↔ exp32 x = 255#8 ∧ mant32 x ≠ 0#23 := by
  unfold class32
  split_ifs <;> simp [*]

theorem class64_eq_nan_iff {x : Bits64} :
    class64 x = .nan ↔ exp64 x = 2047#11 ∧ mant64 x ≠ 0#52 := by
  unfold class64
  split_ifs <;> simp [*]

theorem classSingle_eq_nan_iff {w : Bits32} :
    classSingle w = .nan ↔ singleL w = 0xFF#8 ∧ singleM w = 0#23 := by
  unfold classSingle
  split_ifs <;> simp_all

theorem classDouble_eq_nan_iff {w : Bits64} :
    classDouble w = .nan ↔ doubleL w = 0xFF#8 ∧ doubleF w = 0#55 := by
  unfold classDouble
  split_ifs <;> simp_all

/-! ## What each pattern reads of the parameters -/

variable {p q : Params}

/-- The flush rule reads its parameter at a shifted exponent of exactly 0 only
(40_data_formats.md R66). -/
theorem underflow_congr {l : Int} (hzero : l = 0 → p.dblUnderflowAtL0 = q.dblUnderflowAtL0) :
    underflow p l = underflow q l := by
  by_cases hl : l = 0
  · simp only [underflow, hzero hl]
  · have hle : l ≤ 0 ↔ l < 0 := by omega
    simp only [underflow, hle, ite_self]

theorem encsPattern_congr {x : Bits32} (hnan : class32 x = .nan → p.nanSign = q.nanSign) :
    encsPattern p x = encsPattern q x := by
  unfold encsPattern
  by_cases hx : exp32 x = 255#8 ∧ mant32 x ≠ 0#23
  · simp only [if_pos hx, nanSingle, hnan (class32_eq_nan_iff.2 hx)]
  · simp only [if_neg hx]

theorem encdPattern_congr {x : Bits64} (hnan : class64 x = .nan → p.nanSign = q.nanSign)
    (hzero : class64 x ≠ .nan → (exp64 x).toNat = 894 →
      p.dblUnderflowAtL0 = q.dblUnderflowAtL0) :
    encdPattern p x = encdPattern q x := by
  unfold encdPattern
  by_cases hx : exp64 x = 2047#11 ∧ mant64 x ≠ 0#52
  · simp only [if_pos hx, nanDouble, hnan (class64_eq_nan_iff.2 hx)]
  · have hflush : underflow p ((exp64 x).toNat + offDouble)
        = underflow q ((exp64 x).toNat + offDouble) :=
      underflow_congr fun hl =>
        hzero (mt class64_eq_nan_iff.1 hx) (by unfold offDouble at hl; omega)
    simp only [if_neg hx, hflush]

theorem decsPattern_congr {w : Bits32} (hnan : classSingle w = .nan → p.hostQnan32 = q.hostQnan32)
    (hone : classSingle w ≠ .nan → (singleL w).toNat = 1 → p.sglDecL1 = q.sglDecL1) :
    decsPattern p w = decsPattern q w := by
  unfold decsPattern
  by_cases hFF : singleL w = 0xFF#8
  · by_cases hM : singleM w = 0#23
    · simp only [if_pos hFF, if_pos hM, hnan (classSingle_eq_nan_iff.2 ⟨hFF, hM⟩)]
    · simp only [if_pos hFF, if_neg hM]
  · by_cases hL : singleL w = 1#8
    · have hpolicy : p.sglDecL1 = q.sglDecL1 :=
        hone (fun h => hFF (classSingle_eq_nan_iff.1 h).1) (congrArg BitVec.toNat hL)
      simp only [if_neg hFF, hpolicy]
    · simp only [if_neg hFF, if_neg hL]

theorem decdPattern_congr {w : Bits64} (hnan : classDouble w = .nan → p.hostQnan64 = q.hostQnan64) :
    decdPattern p w = decdPattern q w := by
  unfold decdPattern
  by_cases hL : doubleL w = 0xFF#8
  · by_cases hF : doubleF w = 0#55
    · simp only [if_pos hL, if_pos hF, hnan (classDouble_eq_nan_iff.2 ⟨hL, hF⟩)]
    · simp only [if_neg hF]
  · simp only [if_neg hL]

end Sys2Proof.Machine

namespace Sys2Proof.Proofs

open Sys2Proof.Machine

/-- Settles O27: each clause is the pattern's congruence lemma, whose other case the clause
excludes. -/
theorem parametersMatterOnlyInTheirCases : Obligations.ParametersMatterOnlyInTheirCases := by
  intro p q h32 w32 h64 w64
  refine ⟨?encs, ?encdNan, ?encd, ?decsNan, ?decs, ?decd⟩
  case encs => exact fun h => encsPattern_congr h.neg_resolve_left
  case encdNan => exact fun hnan hsign => encdPattern_congr (fun _ => hsign) (absurd hnan)
  case encd => exact fun hne h => encdPattern_congr (absurd · hne) fun _ => h.neg_resolve_left
  case decsNan => exact fun hnan hq => decsPattern_congr (fun _ => hq) (absurd hnan)
  case decs => exact fun hne h => decsPattern_congr (absurd · hne) fun _ => h.neg_resolve_left
  case decd => exact fun h => decdPattern_congr h.neg_resolve_left

end Sys2Proof.Proofs
end

section
/-!
SUPPORT. What one operation does, said once: the machine answers the head request with the response
of the operation map of 30_encoding.md R33, and nothing else changes.
-/

namespace Sys2Proof.Machine

/-- The meanings the decoder selects answer as `respond` does; of the state they read the
parameters alone. -/
theorem exec_decode (w : ReqWord) (s : State) :
    exec (decode w) s = answer (respond s.params w) s := by
  rcases op_cases (reqOp w) with h | h | h | h | h | h | h | h
  · rw [decode_of_op0 w h, respond, h]; rfl
  · rw [decode_of_op1 w h, respond, h]; rfl
  · rw [decode_of_op2 w h, respond, h]; rfl
  · rw [decode_of_op3 w h, respond, h]; rfl
  · rw [decode_of_op4 w h, respond, h]; rfl
  · rw [decode_of_op5 w h, respond, h]; rfl
  · rw [decode_of_op6 w h, respond, h]; rfl
  · rw [decode_of_op7 w h, respond, h]; rfl

theorem step_of_fetch {s s' : State} {w : ReqWord} (h : s.fetch = some (w, s')) :
    step s = exec (decode w) s' := by
  unfold step; rw [h]

theorem step_cons {s : State} {w : ReqWord} {rest : List ReqWord} (h : s.requests = w :: rest) :
    step s = .next { s with
      requests := rest
      responses := s.responses ++ [respond s.params w] } :=
  (step_of_fetch (fetch_cons h)).trans (exec_decode w _)

end Sys2Proof.Machine

namespace Sys2Proof.Proofs

open Sys2Proof.Machine

/-- Settles O6: the common response is that of the operation map, which takes the parameters and
the request and nothing else of the state. -/
theorem responseDependsOnRequestAndParametersOnly :
    Obligations.ResponseDependsOnRequestAndParametersOnly := by
  intro s t w restS restT hs ht hparams
  have hsame : respond t.params w = respond s.params w := by rw [hparams]
  exact ⟨respond s.params w, step_cons hs, hsame ▸ step_cons ht⟩

end Sys2Proof.Proofs
end

section
/-!
SUPPORT. The two views of a byte sequence, as a list and as a number (20_memory.md R20), each taken
to the other, and the length field of a presented sequence (30_encoding.md R36).
-/

namespace Sys2Proof.Machine

/-! ## `wordOf` and `bytesOf` -/

@[simp] theorem wordOf_nil : wordOf [] = 0 := rfl

@[simp] theorem wordOf_cons (b : Byte) (bs : List Byte) :
    wordOf (b :: bs) = b.toNat + 256 * wordOf bs := rfl

@[simp] theorem bytesOf_zero (w : Nat) : bytesOf 0 w = [] := rfl

@[simp] theorem bytesOf_succ (n w : Nat) :
    bytesOf (n + 1) w = BitVec.ofNat 8 w :: bytesOf n (w / 256) := rfl

/-- One byte further up is a factor 256. -/
theorem two_pow_succ_byte (i : Nat) : 2 ^ (8 * (i + 1)) = 256 * 2 ^ (8 * i) := by
  rw [Nat.mul_succ, pow_add]
  omega

theorem wordOf_eq_sum (bs : List Byte) :
    wordOf bs = ∑ i ∈ Finset.range bs.length, (bs.getD i 0).toNat * 2 ^ (8 * i) := by
  induction bs with
  | nil => rfl
  | cons b bs ih =>
    rw [List.length_cons, Finset.sum_range_succ', wordOf_cons, ih, Finset.mul_sum, add_comm]
    simp [two_pow_succ_byte, mul_left_comm]

theorem bytesOf_eq_map (n w : Nat) :
    bytesOf n w = (List.range n).map fun i => BitVec.ofNat 8 (w / 2 ^ (8 * i)) := by
  induction n generalizing w with
  | zero => rfl
  | succ n ih =>
    have hshift (i : Nat) : w / 2 ^ (8 * (i + 1)) = w / 256 / 2 ^ (8 * i) := by
      rw [Nat.div_div_eq_div_mul, two_pow_succ_byte]
    rw [List.range_succ_eq_map, bytesOf_succ, ih]
    simp [hshift]

theorem bytesOf_wordOf (bs : List Byte) : bytesOf bs.length (wordOf bs) = bs := by
  induction bs with
  | nil => rfl
  | cons b bs ih =>
    have hlow : BitVec.ofNat 8 (b.toNat + 256 * wordOf bs) = b := by
      apply BitVec.eq_of_toNat_eq
      rw [BitVec.toNat_ofNat]
      omega
    have hrest : (b.toNat + 256 * wordOf bs) / 256 = wordOf bs := by omega
    rw [List.length_cons, wordOf_cons, bytesOf_succ, hlow, hrest, ih]

theorem wordOf_bytesOf {n w : Nat} (hw : w < 2 ^ (8 * n)) : wordOf (bytesOf n w) = w := by
  induction n generalizing w with
  | zero => rw [bytesOf_zero, wordOf_nil]; omega
  | succ n ih =>
    have hrest : w / 256 < 2 ^ (8 * n) := by
      rw [two_pow_succ_byte] at hw
      omega
    rw [bytesOf_succ, wordOf_cons, ih hrest, BitVec.toNat_ofNat]
    omega

/-! ## The length a sequence is presented with -/

theorem presentedLen_toNat (bs : List Byte) : (presentedLen bs).toNat = min bs.length 15 := by
  rw [presentedLen, BitVec.toNat_ofNat]
  omega

/-- Below 15 the limit of 30_encoding.md R36 hides no difference of length. -/
theorem presentedLen_eq_iff {bs : List Byte} {width : Len} (hw : width.toNat < 15) :
    presentedLen bs = width ↔ bs.length = width.toNat := by
  rw [← BitVec.toNat_inj, presentedLen_toNat]
  omega

theorem presents_inLen {inLen : Len} {inData : Data} {bs : List Byte}
    (h : presents inLen inData bs = true) : inLen = presentedLen bs :=
  beq_iff_eq.1 (Bool.and_eq_true_iff.1 h).1

/-- The length check of a decode compares the true length of the sequence presented to it. -/
theorem checkLength_status_of_presents {inLen : Len} {inData : Data} {bs : List Byte}
    (h : presents inLen inData bs = true) {width : Len} (hw : width.toNat < 15) (n : Len)
    (v : Data) :
    (checkLength width inLen (okResponse n v)).status
      = if bs.length = width.toNat then .ok else .lengthError := by
  have hiff : inLen = width ↔ bs.length = width.toNat := by
    rw [presents_inLen h, presentedLen_eq_iff hw]
  by_cases hlen : bs.length = width.toNat
  · rw [if_pos hlen, checkLength_of_eq (hiff.2 hlen), okResponse_status]
  · rw [if_neg hlen, checkLength_of_ne (mt hiff.1 hlen), raise_status]
    rfl

end Sys2Proof.Machine

namespace Sys2Proof.Proofs

open Sys2Proof.Machine

/-- Settles O28: one induction for each clause, over the sequence or over the number of bytes. -/
theorem byteSequencesAreLittleEndian : Obligations.ByteSequencesAreLittleEndian :=
  ⟨wordOf_eq_sum, bytesOf_eq_map, bytesOf_wordOf, fun _ _ => wordOf_bytesOf⟩

/-- Settles O29: each decode only answers, and its answer is the length check's at its width. -/
theorem presentedSequenceIsAcceptedAtExactLengthOnly :
    Obligations.PresentedSequenceIsAcceptedAtExactLengthOnly := by
  intro bs inLen inData s h
  refine ⟨⟨deci inLen inData, rfl, ?deci⟩, ⟨decs s.params inLen inData, rfl, ?decs⟩,
    ⟨decd s.params inLen inData, rfl, ?decd⟩⟩
  case deci => exact checkLength_status_of_presents h (width := 2#4) (by decide) _ _
  case decs => exact checkLength_status_of_presents h (width := 4#4) (by decide) _ _
  case decd => exact checkLength_status_of_presents h (width := 8#4) (by decide) _ _

end Sys2Proof.Proofs
end

section
/-!
SUPPORT. What a run does, said once: it answers the requests it takes with the outcome of
70_reset_and_hazards.md R147, and leaves the requests after them.
-/

namespace Sys2Proof.Machine

@[simp] theorem outcome_nil (p : Params) : outcome p [] = [] := rfl

@[simp] theorem outcome_cons (p : Params) (w : ReqWord) (ws : List ReqWord) :
    outcome p (w :: ws) = respond p w :: outcome p ws := rfl

@[simp] theorem outcome_length (p : Params) (ws : List ReqWord) :
    (outcome p ws).length = ws.length := List.length_map _

/-- A request and its response are a function of the request alone, for fixed parameters. -/
theorem zip_outcome (p : Params) (ws : List ReqWord) :
    ws.zip (outcome p ws) = ws.map fun w => (w, respond p w) :=
  List.map_prod_left_eq_zip.symm

theorem runsTo_of_append {s : State} {ws rest : List ReqWord} (h : s.requests = ws ++ rest) :
    runsTo ws.length s { s with
      requests := rest
      responses := s.responses ++ outcome s.params ws } := by
  induction ws generalizing s with
  | nil =>
    obtain ⟨params, requests, responses⟩ := s
    obtain rfl : requests = rest := h
    simp [runsTo, run_zero]
  | cons w ws ih =>
    have hstep := step_cons (s := s) (w := w) (rest := ws ++ rest) h
    have hrest := ih (s := { s with
      requests := ws ++ rest
      responses := s.responses ++ [respond s.params w] }) rfl
    rw [List.append_assoc, List.singleton_append, ← outcome_cons] at hrest
    exact (run_succ_of_next hstep ws.length).trans hrest

/-- From no response, a run of every request leaves the outcome and no request. -/
theorem runsTo_outcome {s : State} (h : s.responses = []) :
    runsTo s.requests.length s ⟨s.params, [], outcome s.params s.requests⟩ := by
  have hrun := runsTo_of_append (s := s) (ws := s.requests) (rest := []) (List.append_nil _).symm
  rwa [h, List.nil_append] at hrun

end Sys2Proof.Machine

namespace Sys2Proof.Proofs

open Sys2Proof.Machine

/-- Settles O10: the pairs of either run are its requests under one map, and a map keeps
permutations. -/
theorem reorderedRequestsGetTheSameResponses :
    Obligations.ReorderedRequestsGetTheSameResponses := by
  intro s t hparams hperm hs ht
  refine ⟨_, _, runsTo_outcome hs, runsTo_outcome ht, outcome_length _ _, outcome_length _ _, ?_⟩
  rw [zip_outcome, zip_outcome, hparams]
  exact hperm.map _

end Sys2Proof.Proofs
end

section
/-!
SUPPORT. The decoder and the encoder as the two directions of one correspondence
(30_encoding.md R30, R33), and what follows from it: the table word of an instruction, the mask and
match form of the operation select, and the presented instruction as the one that runs.
-/

namespace Sys2Proof

/-! ## Decoding and encoding are inverse -/

@[simp] theorem decode_encode (i : Instr) : decode (encode i) = i := by
  cases i with
  | enci l d => simp [encode, decode_of_op0]
  | encs l d => simp [encode, decode_of_op1]
  | encd l d => simp [encode, decode_of_op2]
  | op3 l d => simp [encode, decode_of_op3]
  | deci l d => simp [encode, decode_of_op4]
  | decs l d => simp [encode, decode_of_op5]
  | decd l d => simp [encode, decode_of_op6]
  | op7 l d => simp [encode, decode_of_op7]

@[simp] theorem encode_decode (w : ReqWord) : encode (decode w) = w := by
  rcases op_cases (reqOp w) with h | h | h | h | h | h | h | h
  · rw [decode_of_op0 w h, encode, ← h, packReq_fields]
  · rw [decode_of_op1 w h, encode, ← h, packReq_fields]
  · rw [decode_of_op2 w h, encode, ← h, packReq_fields]
  · rw [decode_of_op3 w h, encode, ← h, packReq_fields]
  · rw [decode_of_op4 w h, encode, ← h, packReq_fields]
  · rw [decode_of_op5 w h, encode, ← h, packReq_fields]
  · rw [decode_of_op6 w h, encode, ← h, packReq_fields]
  · rw [decode_of_op7 w h, encode, ← h, packReq_fields]

/-! ## The operation select -/

theorem reqOp_encode (i : Instr) : reqOp (encode i) = Laws.OpSelect.opValue i := by
  cases i <;> exact reqOp_packReq _ _ _

theorem opValue_decode (w : ReqWord) : Laws.OpSelect.opValue (decode w) = reqOp w := by
  rw [← reqOp_encode, encode_decode]

theorem packReq_and_packReq (op op' : BitVec 3) (l l' : Len) (d d' : Data) :
    packReq op l d &&& packReq op' l' d' = packReq (op &&& op') (l &&& l') (d &&& d') := by
  rw [packReq, packReq, packReq, BitVec.and_append, BitVec.and_append]

/-- The mask keeps the select and clears the two other fields. -/
theorem and_selectMask (w : ReqWord) :
    w &&& 0x700000000000000000#71 = packReq (reqOp w) 0#4 0#64 := by
  have hmask : 0x700000000000000000#71 = packReq (BitVec.allOnes 3) 0#4 0#64 := by decide
  calc w &&& 0x700000000000000000#71
      = packReq (reqOp w) (reqInLen w) (reqInData w) &&& packReq (BitVec.allOnes 3) 0#4 0#64 := by
        rw [packReq_fields, hmask]
    _ = packReq (reqOp w) 0#4 0#64 := by
        rw [packReq_and_packReq, BitVec.and_allOnes, BitVec.and_zero, BitVec.and_zero]

/-- A word matches the mask form `m` of a select exactly when it decodes to the instruction that
the select stands for. -/
theorem and_selectMask_eq_iff {w m : ReqWord} {op : BitVec 3} {i : Instr}
    (hdecode : reqOp w = op → decode w = i) (hop : Laws.OpSelect.opValue i = op)
    (hm : packReq op 0#4 0#64 = m) :
    w &&& 0x700000000000000000#71 = m ↔ decode w = i := by
  rw [and_selectMask, ← hm]
  constructor
  · intro h
    exact hdecode (by simpa using congrArg reqOp h)
  · rintro rfl
    rw [← hop, opValue_decode]

/-! ## Table words -/

/-- The 72-bit table word of an instruction decodes to it. -/
theorem decodeTableWord_of_encode {n : Nat} {i : Instr} (h : (encode i).toNat = n) :
    decodeTableWord 72 n = some i := by
  have hlt : n < 2 ^ 71 := h ▸ (encode i).isLt
  have hmod : n % 2 ^ 72 = n := Nat.mod_eq_of_lt (by omega)
  have hword : BitVec.ofNat 71 n = encode i := by rw [← h, BitVec.ofNat_toNat, BitVec.setWidth_eq]
  rw [decodeTableWord, hmod, decodeWord, if_pos hlt, hword, decode_encode]

end Sys2Proof

namespace Sys2Proof.Machine

theorem withFetchWord_toNat (s : State) (w : ReqWord) :
    s.withFetchWord 72 w.toNat = s.present w := by
  have hmod : w.toNat % 2 ^ 72 = w.toNat := Nat.mod_eq_of_lt (by have := w.isLt; omega)
  rw [State.withFetchWord, hmod, BitVec.ofNat_toNat, BitVec.setWidth_eq]

theorem step_present (s : State) (w : ReqWord) :
    step (s.present w) = exec (decode w) { s with requests := s.requests.tail } :=
  step_of_fetch (fetch_cons (present_requests s w))

end Sys2Proof.Machine

namespace Sys2Proof.Proofs

open Sys2Proof.Machine

/-- Settles O12. -/
theorem decodeOfEncodeIsTheInstruction : Obligations.DecodeOfEncodeIsTheInstruction :=
  decode_encode

/-- Settles O13. -/
theorem encodeOfDecodeIsTheWord : Obligations.EncodeOfDecodeIsTheWord :=
  encode_decode

/-- Settles O5: the table word presents the encoding, which decodes to the instruction. -/
theorem presentedInstructionIsTheOneRun : Obligations.PresentedInstructionIsTheOneRun := by
  intro s i
  rw [withFetchWord_toNat, step_present, decode_encode]

/-- Settles O14: each clause is the mask form of one select. -/
theorem maskedSelectBitsDecideTheOperation : Obligations.MaskedSelectBitsDecideTheOperation :=
  fun w =>
    ⟨and_selectMask_eq_iff (decode_of_op0 w) rfl (by decide),
     and_selectMask_eq_iff (decode_of_op1 w) rfl (by decide),
     and_selectMask_eq_iff (decode_of_op2 w) rfl (by decide),
     and_selectMask_eq_iff (decode_of_op3 w) rfl (by decide),
     and_selectMask_eq_iff (decode_of_op4 w) rfl (by decide),
     and_selectMask_eq_iff (decode_of_op5 w) rfl (by decide),
     and_selectMask_eq_iff (decode_of_op6 w) rfl (by decide),
     and_selectMask_eq_iff (decode_of_op7 w) rfl (by decide)⟩

/-- Settles O15: each printed word is the encoding of its request. -/
theorem printedRequestWordsDecode : Obligations.PrintedRequestWordsDecode := by
  refine ⟨?_, ?_, ?_, ?_, ?_, ?_, ?_, ?_⟩ <;> exact decodeTableWord_of_encode (by decide)

end Sys2Proof.Proofs
end

section
/-!
SUPPORT. The legal forms of a response (Safety.lean) and its packed word (Machine/Flags.lean): every
response of the operation map is legal, so a step keeps the invariant.
-/

namespace Sys2Proof.Machine

/-! ## Legal responses (30_encoding.md R37; 60_exceptions.md R120) -/

theorem raise_legal (e : ErrorKind) : (raise e).legal = true := by
  cases e <;> rfl

theorem okResponse_legal {n : Len} {v : Data} (hn : n = 2#4 ∨ n = 4#4 ∨ n = 8#4)
    (hv : v.toNat < 2 ^ (8 * n.toNat)) : (okResponse n v).legal = true := by
  simp [Response.legal, hn, hv, or_assoc]

theorem okResponse_zext16_legal (v : BitVec 16) : (okResponse 2#4 (zext16 v)).legal = true :=
  okResponse_legal (.inl rfl) ((zext16_toNat v).trans_lt v.isLt)

theorem okResponse_zext32_legal (v : Bits32) : (okResponse 4#4 (zext32 v)).legal = true :=
  okResponse_legal (.inr (.inl rfl)) ((zext32_toNat v).trans_lt v.isLt)

theorem okResponse_bits64_legal (v : Bits64) : (okResponse 8#4 v).legal = true :=
  okResponse_legal (.inr (.inr rfl)) v.isLt

/-- A length check lets its result through or raises, and an error is legal. -/
theorem checkLength_legal {width inLen : Len} {r : Response} (h : r.legal = true) :
    (checkLength width inLen r).legal = true := by
  by_cases hlen : inLen = width
  · rwa [checkLength_of_eq hlen]
  · rw [checkLength_of_ne hlen, raise_legal]

theorem respond_legal (p : Params) (w : ReqWord) : (respond p w).legal = true := by
  unfold respond
  split
  · exact okResponse_zext16_legal _
  · exact okResponse_zext32_legal _
  · exact okResponse_bits64_legal _
  · exact checkLength_legal (okResponse_zext16_legal _)
  · exact checkLength_legal (okResponse_zext32_legal _)
  · exact checkLength_legal (okResponse_bits64_legal _)
  · exact raise_legal _

/-! ## The invariant -/

/-- Everything a step that goes on can have done. -/
theorem step_eq_next_respond {s t : State} (h : step s = .next t) :
    ∃ w rest, s.requests = w :: rest ∧
      t = { s with requests := rest, responses := s.responses ++ [respond s.params w] } := by
  obtain ⟨w, s', hfetch, -⟩ := step_eq_next h
  obtain ⟨hrequests, -, -⟩ := fetch_eq_some hfetch
  have hnext := h.symm.trans (step_cons hrequests)
  injection hnext with ht
  exact ⟨w, s'.requests, hrequests, ht⟩

theorem inv_iff {s : State} :
    s.inv = true ↔ s.params.wf = true ∧ ∀ r ∈ s.responses, r.legal = true := by
  rw [State.inv, Bool.and_eq_true, List.all_eq_true]

/-! ## The packed response (30_encoding.md R31, R32) -/

theorem pack_toNat (r : Response) :
    r.pack.toNat = r.status.code.toNat * 2 ^ 68 + r.outLen.toNat * 2 ^ 64 + r.outData.toNat :=
  Laws.toNat_append3_eq_add _ _ _

theorem pack_status (r : Response) : r.pack.extractLsb' 68 2 = r.status.code := by
  apply BitVec.eq_of_toNat_eq
  rw [Laws.toNat_slice, pack_toNat]
  omega

theorem code_inj {a b : Status} : a.code = b.code ↔ a = b := by
  cases a <;> cases b <;> decide

theorem code_ne_three (a : Status) : a.code ≠ 0b11#2 := by
  cases a <;> decide

end Sys2Proof.Machine

namespace Sys2Proof.Proofs

open Sys2Proof.Machine

/-- Settles O2: the parameters are kept, and the one response added is legal. -/
theorem stepKeepsTheInvariant : Obligations.StepKeepsTheInvariant := by
  intro s t hs hstep
  obtain ⟨w, rest, -, rfl⟩ := step_eq_next_respond hstep
  obtain ⟨hwf, hlegal⟩ := inv_iff.1 hs
  refine inv_iff.2 ⟨hwf, List.forall_mem_append.2 ⟨hlegal, ?_⟩⟩
  exact List.forall_mem_singleton.2 (respond_legal s.params w)

/-- Settles O3: the response is that of the operation map. -/
theorem stepTakesOneRequestAndAddsOneResponse :
    Obligations.StepTakesOneRequestAndAddsOneResponse :=
  fun s w _ h => ⟨respond s.params w, respond_legal s.params w, step_cons h⟩

/-- Settles O4. -/
theorem stepRunsTheDecodedRequest : Obligations.StepRunsTheDecodedRequest :=
  fun _ _ _ h => step_of_fetch (fetch_cons h)

/-- Settles O7. -/
theorem stepAnswersByTheOperationMap : Obligations.StepAnswersByTheOperationMap :=
  fun _ _ _ h => step_cons h

/-- Settles O16: the clauses on the codes are injectivity of `Status.code` at each status. -/
theorem packedResponseHasItsThreeFields : Obligations.PackedResponseHasItsThreeFields := by
  intro r
  refine ⟨pack_toNat r, code_inj (b := .ok), code_inj (b := .lengthError),
    code_inj (b := .illegalOp), ?_⟩
  rw [pack_status]
  exact code_ne_three r.status

/-- Settles O23: both meanings raise IllegalOp without reading a field. -/
theorem reservedSelectsAnswerIllegalOp : Obligations.ReservedSelectsAnswerIllegalOp :=
  fun _ _ _ => ⟨rfl, rfl⟩

end Sys2Proof.Proofs
end

section
/-!
SUPPORT. What an operation reads of its two fields (30_encoding.md R35, R36): the low bits of
`in_data` up to the width, and on a decode those only at the right length.
-/

namespace Sys2Proof.Machine

theorem low16_congr {d d' : Data} (h : d.toNat % 2 ^ 16 = d'.toNat % 2 ^ 16) :
    low16 d = low16 d' := by
  apply BitVec.eq_of_toNat_eq
  rw [low16_toNat, low16_toNat]
  omega

theorem low32_congr {d d' : Data} (h : d.toNat % 2 ^ 32 = d'.toNat % 2 ^ 32) :
    low32 d = low32 d' := by
  apply BitVec.eq_of_toNat_eq
  rw [low32_toNat, low32_toNat]
  omega

/-- The result of a length check matters at the right length only. -/
theorem checkLength_congr {width inLen : Len} {r r' : Response} (h : inLen = width → r = r') :
    checkLength width inLen r = checkLength width inLen r' := by
  by_cases hlen : inLen = width
  · rw [h hlen]
  · rw [checkLength_of_ne hlen, checkLength_of_ne hlen]

theorem deci_congr {l : Len} {d d' : Data} (h : l = 2#4 → low16 d = low16 d') :
    deci l d = deci l d' :=
  checkLength_congr fun hl => by rw [h hl]

theorem decs_congr {p : Params} {l : Len} {d d' : Data} (h : l = 4#4 → low32 d = low32 d') :
    decs p l d = decs p l d' :=
  checkLength_congr fun hl => by rw [h hl]

theorem decd_congr {p : Params} {l : Len} {d d' : Data} (h : l = 8#4 → low64 d = low64 d') :
    decd p l d = decd p l d' :=
  checkLength_congr fun hl => by rw [h hl]

end Sys2Proof.Machine

namespace Sys2Proof.Proofs

open Sys2Proof.Machine

/-- Settles O26: each meaning answers a response in which the ignored bits do not occur. -/
theorem ignoredBitsDoNotMatter : Obligations.IgnoredBitsDoNotMatter := by
  intro l l' d d' s
  refine ⟨?enci, ?encs, ?encd, ?op3, ?deci, ?decs, ?decd, ?op7⟩
  case enci => exact fun h => congrArg (fun v => answer (enci v) s) (low16_congr h)
  case encs => exact fun h => congrArg (fun v => answer (encs s.params v) s) (low32_congr h)
  case encd => rfl
  case op3 => rfl
  case deci =>
    exact fun h => congrArg (answer · s) (deci_congr fun hl => low16_congr (h.neg_resolve_left hl))
  case decs =>
    exact fun h => congrArg (answer · s) (decs_congr fun hl => low32_congr (h.neg_resolve_left hl))
  case decd => exact fun h => congrArg (answer · s) (decd_congr fun hl => absurd hl h)
  case op7 => rfl

end Sys2Proof.Proofs
end

section
/-!
SUPPORT. The lanes of a presented byte sequence (20_memory.md R21; 30_encoding.md R36): what they
hold, and the number a decode of the sequence's width reads there.
-/

namespace Sys2Proof.Machine

/-! ## The bytes of a number -/

theorem byte_wordOf (bs : List Byte) (i : Nat) :
    BitVec.ofNat 8 (wordOf bs / 2 ^ (8 * i)) = bs.getD i 0#8 := by
  induction bs generalizing i with
  | nil => simp
  | cons b bs ih =>
    cases i with
    | zero =>
      apply BitVec.eq_of_toNat_eq
      rw [wordOf_cons, List.getD_cons_zero, BitVec.toNat_ofNat]
      omega
    | succ i =>
      have hrest : (b.toNat + 256 * wordOf bs) / 256 = wordOf bs := by omega
      rw [wordOf_cons, two_pow_succ_byte, ← Nat.div_div_eq_div_mul, hrest, ih, List.getD_cons_succ]

/-- The bytes of a number give back the number, reduced to that many bytes. -/
theorem wordOf_bytesOf_eq_mod (n w : Nat) : wordOf (bytesOf n w) = w % 2 ^ (8 * n) := by
  induction n generalizing w with
  | zero => simp [Nat.mod_one]
  | succ n ih =>
    rw [bytesOf_succ, wordOf_cons, ih, two_pow_succ_byte, Nat.mod_mul, BitVec.toNat_ofNat]

/-! ## The lanes of a data bus -/

theorem lane_eq_ofNat (d : Data) (i : Nat) : lane d i = BitVec.ofNat 8 (d.toNat / 2 ^ (8 * i)) := by
  apply BitVec.eq_of_toNat_eq
  rw [lane_toNat, BitVec.toNat_ofNat]

theorem bytesOf_toNat (n : Nat) (d : Data) : bytesOf n d.toNat = (List.range n).map (lane d) := by
  rw [bytesOf_eq_map]
  exact List.map_congr_left fun i _ => (lane_eq_ofNat d i).symm

/-- A bus of eight lanes holds the first eight bytes of a sequence. -/
theorem lane_lanesOf (bs : List Byte) {i : Nat} (hi : i < 8) :
    lane (lanesOf bs) i = bs.getD i 0#8 := by
  have hwidth : 2 ^ 64 = 2 ^ (8 * i) * 2 ^ (64 - 8 * i) := by rw [← pow_add]; congr 1; omega
  have hbyte : 2 ^ 8 ∣ 2 ^ (64 - 8 * i) := pow_dvd_pow 2 (by omega)
  rw [← byte_wordOf]
  apply BitVec.eq_of_toNat_eq
  rw [lane_toNat, lanesOf, BitVec.toNat_ofNat, BitVec.toNat_ofNat, hwidth,
    Nat.mod_mul_right_div_self, Nat.mod_mod_of_dvd _ hbyte]

/-! ## Presented sequences -/

theorem presents_iff {inLen : Len} {inData : Data} {bs : List Byte} :
    presents inLen inData bs = true ↔
      inLen = presentedLen bs ∧ ∀ i < min bs.length 8, lane inData i = bs.getD i 0#8 := by
  simp [presents]

theorem presents_lanesOf (bs : List Byte) : presents (presentedLen bs) (lanesOf bs) bs = true :=
  presents_iff.2 ⟨rfl, fun _ hi => lane_lanesOf bs (lt_of_lt_of_le hi (min_le_right _ _))⟩

/-- The lanes of a sequence that fits the bus are the sequence, whatever stands above them. -/
theorem wordOf_of_presents {inLen : Len} {inData : Data} {bs : List Byte}
    (h : presents inLen inData bs = true) (hlen : bs.length ≤ 8) :
    inData.toNat % 2 ^ (8 * bs.length) = wordOf bs := by
  obtain ⟨-, hlanes⟩ := presents_iff.1 h
  rw [min_eq_left hlen] at hlanes
  have hbytes : bytesOf bs.length inData.toNat = bs := by
    rw [bytesOf_toNat]
    refine List.ext_getElem (by simp) fun i _ hi => ?_
    rw [List.getElem_map, List.getElem_range, hlanes i hi, List.getD_eq_getElem bs 0#8 hi]
  rw [← wordOf_bytesOf_eq_mod, hbytes]

end Sys2Proof.Machine

namespace Sys2Proof.Proofs

open Sys2Proof.Machine

/-- Settles O30: the operand of each width is the data bus reduced to that many bytes. -/
theorem presentedSequenceIsReadAsItsWord : Obligations.PresentedSequenceIsReadAsItsWord := by
  intro bs inLen inData h
  have hread := wordOf_of_presents h
  refine ⟨?deci, ?decs, ?decd, presents_lanesOf bs⟩
  case deci =>
    intro hlen
    rw [← hread (by omega), hlen, low16_toNat]
    omega
  case decs =>
    intro hlen
    rw [← hread (by omega), hlen, low32_toNat]
    omega
  case decd =>
    intro hlen
    rw [← hread (by omega), hlen]
    exact (Nat.mod_eq_of_lt inData.isLt).symm

end Sys2Proof.Proofs
end

section
/-!
SUPPORT. The lines of a program as request words (30_encoding.md R39, R40): the responses of the
lines are the outcome of the requests they come to.
-/

namespace Sys2Proof.Machine

theorem runLines_cons_eq_some {p : Params} {l : Line} {ls : List Line} {done rs : List Response}
    (h : runLines p (l :: ls) done = some rs) :
    ∃ w, l.request done = some w ∧ runLines p ls (done ++ [respond p w]) = some rs := by
  unfold runLines at h
  split at h
  · cases h
  · next w hw => exact ⟨w, hw, h⟩

/-- The lines come to requests, one each, whose outcome is appended to the responses before them. -/
theorem exists_requests_of_runLines {p : Params} {ls : List Line} {done rs : List Response}
    (h : runLines p ls done = some rs) :
    ∃ ws : List ReqWord, ws.length = ls.length ∧ rs = done ++ outcome p ws ∧
      ∀ (i : Nat) (l : Line), ls[i]? = some l → l.request (rs.take (done.length + i)) = ws[i]? := by
  induction ls generalizing done with
  | nil =>
    obtain rfl : done = rs := Option.some.inj h
    exact ⟨[], rfl, by simp, by simp⟩
  | cons l ls ih =>
    obtain ⟨w, hw, hrest⟩ := runLines_cons_eq_some h
    obtain ⟨ws, hlen, hrs, hreq⟩ := ih hrest
    rw [List.append_assoc, List.singleton_append, ← outcome_cons] at hrs
    refine ⟨w :: ws, by simp [hlen], hrs, fun i l' hi => ?_⟩
    cases i with
    | zero =>
      obtain rfl : l = l' := by simpa using hi
      rw [hrs, Nat.add_zero, List.take_left, hw, List.getElem?_cons_zero]
    | succ i =>
      have hnext := hreq i l' (by simpa using hi)
      rwa [List.length_append, List.length_singleton, Nat.add_assoc, Nat.add_comm 1 i] at hnext

end Sys2Proof.Machine

namespace Sys2Proof.Proofs

open Sys2Proof.Machine

/-- Settles O50: from no response, the lines' responses are the outcome of their requests, and a
run of those requests answers it. -/
theorem programLinesAreARunOfTheMachine : Obligations.ProgramLinesAreARunOfTheMachine := by
  intro p ls rs h
  obtain ⟨ws, hlen, hrs, hreq⟩ := exists_requests_of_runLines h
  refine ⟨ws, hlen, fun i l hi => ?_, ?_⟩
  · simpa using hreq i l hi
  · rw [hrs, List.nil_append]
    exact runsTo_outcome (s := ⟨p, ws, []⟩) rfl

end Sys2Proof.Proofs
end

section
/-!
SUPPORT. The numbers of host patterns (40_data_formats.md R50 to R52): an int16 as a
two's-complement number, and the magnitude of a binary32 or binary64 compared with powers of two,
once for both formats.
-/

namespace Sys2Proof.Machine

/-! ## int16 -/

theorem valueInt16_eq_toInt (v : BitVec 16) : valueInt16 v = v.toInt := by
  rw [valueInt16, Laws.toNat_slice, Laws.toNat_slice, BitVec.toInt_eq_toNat_cond]
  have hv := v.isLt
  split_ifs <;> omega

/-! ## A significand times a power of two -/

theorem fraction_lt_one {n m : ℕ} (hm : m < 2 ^ n) : (m : ℚ) / 2 ^ n < 1 := by
  rw [div_lt_one (by positivity)]
  exact_mod_cast hm

theorem significand_mul_lt_two_zpow_iff {f : ℚ} (hf₀ : 0 ≤ f) (hf₁ : f < 1) {j k : ℤ} :
    (1 + f) * (2 : ℚ) ^ j < (2 : ℚ) ^ k ↔ j < k := by
  have hpos : (0 : ℚ) < 2 ^ j := by positivity
  constructor
  · intro h
    exact (zpow_lt_zpow_iff_right₀ one_lt_two).1 (lt_of_le_of_lt (by nlinarith) h)
  · intro h
    calc (1 + f) * (2 : ℚ) ^ j < 2 ^ (j + 1) := by
          rw [zpow_add_one₀ two_ne_zero]; nlinarith
      _ ≤ 2 ^ k := zpow_le_zpow_right₀ one_le_two h

theorem significand_mul_eq_two_zpow_iff {f : ℚ} (hf₀ : 0 ≤ f) (hf₁ : f < 1) {j k : ℤ} :
    (1 + f) * (2 : ℚ) ^ j = (2 : ℚ) ^ k ↔ j = k ∧ f = 0 := by
  refine ⟨fun h => ?_, fun ⟨hj, hf⟩ => by rw [hj, hf]; ring⟩
  have hle : ¬ j < k := fun hlt => ((significand_mul_lt_two_zpow_iff hf₀ hf₁).2 hlt).ne h
  have hlt : j < k + 1 := (significand_mul_lt_two_zpow_iff hf₀ hf₁).1
    (h ▸ (zpow_lt_zpow_iff_right₀ one_lt_two).2 (lt_add_one k))
  obtain rfl : j = k := by omega
  have hone : 1 + f = 1 := (mul_eq_right₀ (by positivity)).1 h
  exact ⟨rfl, by linarith⟩

/-! ## Host magnitudes -/

/-- The magnitude of a finite host number with `n` mantissa bits, from its exponent and mantissa
fields (40_data_formats.md R51, R52): no hidden one and the smallest exponent when the exponent
field is 0. -/
def hostMagnitude (n : ℕ) (bias : ℤ) (e m : ℕ) : ℚ :=
  if e = 0 then m / 2 ^ n * 2 ^ (1 - bias) else (1 + m / 2 ^ n) * 2 ^ (e - bias)

theorem hostMagnitude_nonneg (n : ℕ) (bias : ℤ) (e m : ℕ) : 0 ≤ hostMagnitude n bias e m := by
  unfold hostMagnitude
  split_ifs <;> positivity

/-- A zero or a subnormal is below every power of two that a normal number reaches. -/
theorem hostMagnitude_zero_lt {n m : ℕ} {bias k : ℤ} (hm : m < 2 ^ n) (hk : 1 - bias ≤ k) :
    hostMagnitude n bias 0 m < 2 ^ k := by
  have hpos : (0 : ℚ) < 2 ^ (1 - bias) := by positivity
  calc hostMagnitude n bias 0 m = m / 2 ^ n * 2 ^ (1 - bias) := if_pos rfl
    _ < 2 ^ (1 - bias) := mul_lt_of_lt_one_left hpos (fraction_lt_one hm)
    _ ≤ 2 ^ k := zpow_le_zpow_right₀ one_le_two hk

theorem hostMagnitude_lt_two_zpow_iff {n e m : ℕ} {bias k : ℤ} (hm : m < 2 ^ n)
    (hk : 1 - bias ≤ k) : hostMagnitude n bias e m < 2 ^ k ↔ e < k + bias := by
  rcases eq_or_ne e 0 with rfl | he
  · exact iff_of_true (hostMagnitude_zero_lt hm hk) (by omega)
  · rw [hostMagnitude, if_neg he,
      significand_mul_lt_two_zpow_iff (by positivity) (fraction_lt_one hm), sub_lt_iff_lt_add]

theorem two_zpow_le_hostMagnitude_iff {n e m : ℕ} {bias k : ℤ} (hm : m < 2 ^ n)
    (hk : 1 - bias ≤ k) : 2 ^ k ≤ hostMagnitude n bias e m ↔ k + bias ≤ e := by
  rw [← not_lt, hostMagnitude_lt_two_zpow_iff hm hk, not_lt]

theorem hostMagnitude_eq_two_zpow_iff {n e m : ℕ} {bias k : ℤ} (hm : m < 2 ^ n)
    (hk : 1 - bias ≤ k) : hostMagnitude n bias e m = 2 ^ k ↔ e = k + bias ∧ m = 0 := by
  rcases eq_or_ne e 0 with rfl | he
  · exact iff_of_false (hostMagnitude_zero_lt hm hk).ne (by omega)
  · rw [hostMagnitude, if_neg he,
      significand_mul_eq_two_zpow_iff (by positivity) (fraction_lt_one hm), sub_eq_iff_eq_add]
    simp

/-! ## The value of a pattern -/

theorem abs_signFactor (s : BitVec 1) : |signFactor s| = 1 := by
  unfold signFactor
  split_ifs <;> simp

theorem value32_eq (x : Bits32) :
    value32 x = if exp32 x = 255#8 then none else
      some (signFactor (sign32 x)
        * hostMagnitude 23 hostBias32 (exp32 x).toNat (mant32 x).toNat) := by
  unfold value32 class32
  split_ifs with h255 hm h0 hm
  · rfl
  · rfl
  · simp [h0, hm, hostMagnitude]
  · simp [h0, hostMagnitude, hostBias32, mul_assoc]
  · have hne : (exp32 x).toNat ≠ 0 := fun h => h0 (BitVec.eq_of_toNat_eq h)
    simp [hne, hostMagnitude, mul_assoc]

theorem value64_eq (x : Bits64) :
    value64 x = if exp64 x = 2047#11 then none else
      some (signFactor (sign64 x)
        * hostMagnitude 52 hostBias64 (exp64 x).toNat (mant64 x).toNat) := by
  unfold value64 class64
  split_ifs with h2047 hm h0 hm
  · rfl
  · rfl
  · simp [h0, hm, hostMagnitude]
  · simp [h0, hostMagnitude, hostBias64, mul_assoc]
  · have hne : (exp64 x).toNat ≠ 0 := fun h => h0 (BitVec.eq_of_toNat_eq h)
    simp [hne, hostMagnitude, mul_assoc]

theorem abs_of_value32 {x : Bits32} {v : ℚ} (hv : value32 x = some v) :
    exp32 x ≠ 255#8 ∧ |v| = hostMagnitude 23 hostBias32 (exp32 x).toNat (mant32 x).toNat := by
  rw [value32_eq] at hv
  split_ifs at hv with he
  obtain rfl := Option.some.inj hv
  rw [abs_mul, abs_signFactor, one_mul, abs_of_nonneg (hostMagnitude_nonneg ..)]
  exact ⟨he, rfl⟩

theorem abs_of_value64 {x : Bits64} {v : ℚ} (hv : value64 x = some v) :
    exp64 x ≠ 2047#11 ∧ |v| = hostMagnitude 52 hostBias64 (exp64 x).toNat (mant64 x).toNat := by
  rw [value64_eq] at hv
  split_ifs at hv with he
  obtain rfl := Option.some.inj hv
  rw [abs_mul, abs_signFactor, one_mul, abs_of_nonneg (hostMagnitude_nonneg ..)]
  exact ⟨he, rfl⟩

end Sys2Proof.Machine

namespace Sys2Proof.Proofs

open Sys2Proof.Machine

/-- Settles O31: the two parts of the pattern are those of its two's-complement reading, which is a
bijection onto its range. -/
theorem int16ValuesAreTwosComplement : Obligations.Int16ValuesAreTwosComplement := by
  refine ⟨fun v => ?range, fun n hlow hhigh => ?unique⟩
  case range =>
    rw [valueInt16_eq_toInt]
    exact ⟨rfl, BitVec.le_toInt v, Int.le_of_lt_add_one BitVec.toInt_lt⟩
  case unique =>
    have hn : (BitVec.ofInt 16 n).toInt = n :=
      BitVec.toInt_ofInt_eq_self (by omega) (by omega) (by omega)
    simp only [valueInt16_eq_toInt]
    exact ⟨BitVec.ofInt 16 n, hn, fun v hv => BitVec.eq_of_toInt_eq (hv.trans hn.symm)⟩

end Sys2Proof.Proofs
end

section
/-!
SUPPORT. The patterns of the two floating-point codecs by ranges of the exponent field
(42_single_codec.md R80, R81; 43_double_codec.md R100, R101), and the exponents at which an encode
answers the overflow pattern or a zero.
-/

namespace Sys2Proof.Machine

/-- An exponent field takes every number that fits its width (40_data_formats.md R64). -/
theorem toNat_ofInt_of_fits {n : ℕ} {i : ℤ} (h₀ : 0 ≤ i) (h : i < 2 ^ n) :
    ((BitVec.ofInt n i).toNat : ℤ) = i := by
  rw [BitVec.toNat_ofInt, Int.emod_eq_of_lt h₀ (by exact_mod_cast h), Int.toNat_of_nonneg h₀]

section Single

variable (p : Params) {x w : Bits32}

theorem encsPattern_of_overflow (hfin : exp32 x ≠ 255#8) (he : 253 ≤ (exp32 x).toNat) :
    encsPattern p x = ovfSingle (sign32 x) := by
  have hl : ((exp32 x).toNat : ℤ) + offSingle > lMax := by unfold offSingle lMax; omega
  simp only [encsPattern, hfin, false_and, if_false, if_pos hl]

theorem encsPattern_of_fits (he : (exp32 x).toNat ≤ 252) :
    encsPattern p x = if exp32 x = 0#8 ∧ mant32 x = 0#23 then zeroSingle (sign32 x)
      else packSingle (BitVec.ofInt 8 ((exp32 x).toNat + 2)) (sign32 x) (mant32 x) := by
  have hfin : exp32 x ≠ 255#8 := by bv_omega
  have hl : ¬ ((exp32 x).toNat : ℤ) + offSingle > lMax := by unfold offSingle lMax; omega
  simp only [encsPattern, hfin, false_and, if_false, if_neg hl]
  rfl

theorem encsPattern_eq_ovfSingle_iff (hfin : exp32 x ≠ 255#8) :
    encsPattern p x = ovfSingle (sign32 x) ↔ 253 ≤ (exp32 x).toNat := by
  refine ⟨fun h => ?_, encsPattern_of_overflow p hfin⟩
  by_contra! he
  have hL : singleL (encsPattern p x) = 0xFF#8 := by rw [h, ovfSingle, singleL_packSingle]
  rw [encsPattern_of_fits p (by omega)] at hL
  split_ifs at hL
  · simp [zeroSingle] at hL
  · have hexp := toNat_ofInt_of_fits (n := 8) (i := (exp32 x).toNat + 2) (by omega) (by omega)
    rw [singleL_packSingle] at hL
    rw [hL, BitVec.toNat_ofNat] at hexp
    omega

theorem decsPattern_of_normal (hlow : 3 ≤ (singleL w).toNat) (hhigh : (singleL w).toNat ≤ 254) :
    decsPattern p w
      = pack32 (singleS w) (BitVec.ofInt 8 ((singleL w).toNat - 2)) (singleM w) := by
  have hFF : singleL w ≠ 0xFF#8 := by bv_omega
  have h0 : singleL w ≠ 0#8 := by bv_omega
  have h1 : singleL w ≠ 1#8 := by bv_omega
  simp only [decsPattern, if_neg hFF, if_neg h0, if_neg h1, offSingle]

end Single

section Double

variable (p : Params) {x w : Bits64}

theorem underflow_eq_true_iff {l : ℤ} :
    underflow p l = true ↔ l < 0 ∨ (l = 0 ∧ p.dblUnderflowAtL0 = true) := by
  unfold underflow
  cases p.dblUnderflowAtL0 <;> simp [le_iff_lt_or_eq]

theorem encdPattern_of_overflow (hfin : exp64 x ≠ 2047#11) (he : 1149 ≤ (exp64 x).toNat) :
    encdPattern p x = ovfDouble (sign64 x) := by
  have hl : ((exp64 x).toNat : ℤ) + offDouble > lMax := by unfold offDouble lMax; omega
  simp only [encdPattern, hfin, false_and, if_false, if_pos hl]

/-- Below the overflow threshold a double is flushed or stored; a zero is among the flushed. -/
theorem encdPattern_of_fits (he : (exp64 x).toNat ≤ 1148) :
    encdPattern p x = if underflow p ((exp64 x).toNat - 894) then zeroDouble (sign64 x)
      else packDouble (BitVec.ofInt 8 ((exp64 x).toNat - 894)) (sign64 x)
        (storeMantissa (mant64 x)) := by
  have hfin : exp64 x ≠ 2047#11 := by bv_omega
  have hl : ¬ ((exp64 x).toNat : ℤ) + offDouble > lMax := by unfold offDouble lMax; omega
  have hzero : exp64 x = 0#11 ∧ mant64 x = 0#52 →
      underflow p ((exp64 x).toNat + offDouble) = true :=
    fun ⟨h, _⟩ => (underflow_eq_true_iff p).2 (.inl (by rw [h]; decide))
  simp only [encdPattern, hfin, false_and, if_false, if_neg hl,
    or_iff_right_of_imp hzero]
  rfl

theorem encdPattern_of_normal (hlow : 895 ≤ (exp64 x).toNat) (hhigh : (exp64 x).toNat ≤ 1148) :
    encdPattern p x = packDouble (BitVec.ofInt 8 ((exp64 x).toNat - 894)) (sign64 x)
      (storeMantissa (mant64 x)) := by
  rw [encdPattern_of_fits p hhigh, if_neg]
  rw [underflow_eq_true_iff]
  omega

theorem encdPattern_eq_ovfDouble_iff (hfin : exp64 x ≠ 2047#11) :
    encdPattern p x = ovfDouble (sign64 x) ↔ 1149 ≤ (exp64 x).toNat := by
  refine ⟨fun h => ?_, encdPattern_of_overflow p hfin⟩
  by_contra! he
  have hL : doubleL (encdPattern p x) = 0xFF#8 := by rw [h, ovfDouble, doubleL_packDouble]
  rw [encdPattern_of_fits p (by omega)] at hL
  split_ifs at hL with hflush
  · simp [zeroDouble] at hL
  · rw [underflow_eq_true_iff] at hflush
    have hexp := toNat_ofInt_of_fits (n := 8) (i := (exp64 x).toNat - 894) (by omega) (by omega)
    rw [doubleL_packDouble] at hL
    rw [hL, BitVec.toNat_ofNat] at hexp
    omega

/-- A finite double becomes a zero when it is flushed, or when it is stored with an exponent field
and a mantissa of 0 (40_data_formats.md R66). -/
theorem encdPattern_eq_zeroDouble_iff (hfin : exp64 x ≠ 2047#11) :
    encdPattern p x = zeroDouble (sign64 x) ↔ (exp64 x).toNat < 894 ∨
      ((exp64 x).toNat = 894 ∧ (p.dblUnderflowAtL0 = true ∨ (mant64 x).toNat = 0)) := by
  rcases Nat.lt_or_ge 1148 (exp64 x).toNat with he | he
  · refine iff_of_false (fun h => ?_) (by omega)
    rw [encdPattern_of_overflow p hfin he, ovfDouble, zeroDouble, packDouble_inj_iff] at h
    simp at h
  · rw [encdPattern_of_fits p he]
    split_ifs with hflush
    · rw [underflow_eq_true_iff] at hflush
      exact iff_of_true rfl (hflush.imp (by omega) fun ⟨hl, hp⟩ => ⟨by omega, .inl hp⟩)
    · rw [underflow_eq_true_iff] at hflush
      have hexp := toNat_ofInt_of_fits (n := 8) (i := (exp64 x).toNat - 894) (by omega) (by omega)
      rw [zeroDouble, packDouble_inj_iff, doubleL_packDouble, doubleS_packDouble,
        doubleF_packDouble, ← BitVec.toNat_inj, ← BitVec.toNat_inj (x := storeMantissa _),
        storeMantissa_toNat, BitVec.toNat_zero, BitVec.toNat_zero]
      grind

theorem decdPattern_of_normal (hlow : 1 ≤ (doubleL w).toNat) (hhigh : (doubleL w).toNat ≤ 254) :
    decdPattern p w = pack64 (doubleS w) (BitVec.ofInt 11 ((doubleL w).toNat + 894))
      (loadMantissa (doubleF w)) := by
  have hFF : doubleL w ≠ 0xFF#8 := by bv_omega
  have h0 : doubleL w ≠ 0#8 := by bv_omega
  simp only [decdPattern, if_neg hFF, if_neg h0, offDouble, sub_neg_eq_add]

end Double

end Sys2Proof.Machine

namespace Sys2Proof.Proofs

open Sys2Proof.Machine

/-- Settles O39: both sides say that the exponent field is at least 253. -/
theorem singleSaturatesFromTwoToThe126 : Obligations.SingleSaturatesFromTwoToThe126 := by
  intro p x v hv
  obtain ⟨hfin, habs⟩ := abs_of_value32 hv
  rw [encsPattern_eq_ovfSingle_iff p hfin, habs, ← zpow_ofNat,
    two_zpow_le_hostMagnitude_iff (mant32 x).isLt (by decide)]
  unfold hostBias32
  omega

/-- Settles O46: each threshold on the magnitude is one on the exponent field, and at `2^-129` on
the mantissa too. -/
theorem doubleThresholdsInMagnitude : Obligations.DoubleThresholdsInMagnitude := by
  intro p x v hv
  obtain ⟨hfin, habs⟩ := abs_of_value64 hv
  have hm := (mant64 x).isLt
  rw [encdPattern_eq_ovfDouble_iff p hfin, encdPattern_eq_zeroDouble_iff p hfin, habs]
  refine ⟨?saturates, ?flushes, ?keepsL0⟩
  case saturates =>
    rw [← zpow_ofNat, two_zpow_le_hostMagnitude_iff hm (by decide)]
    unfold hostBias64
    omega
  case flushes =>
    intro hp
    simp only [hostMagnitude_lt_two_zpow_iff hm (by decide : 1 - hostBias64 ≤ -128), hp, true_or,
      and_true]
    unfold hostBias64
    omega
  case keepsL0 =>
    intro hp
    have hk : 1 - hostBias64 ≤ -129 := by decide
    simp only [le_iff_lt_or_eq, hostMagnitude_lt_two_zpow_iff hm hk,
      hostMagnitude_eq_two_zpow_iff hm hk, hp, Bool.false_eq_true, false_or]
    unfold hostBias64
    omega

end Sys2Proof.Proofs
end

section
/-!
SUPPORT. A normal host number and a legacy pattern with the same sign, the same mantissa and
exponent fields that differ by the codec's offset stand for the same number (40_data_formats.md
R60, R63), whichever of the two was made from the other.
-/

namespace Sys2Proof.Machine

theorem class32_eq_normal {x : Bits32} (hlow : 1 ≤ (exp32 x).toNat)
    (hhigh : (exp32 x).toNat ≤ 254) : class32 x = .normal := by
  have h255 : exp32 x ≠ 255#8 := by bv_omega
  have h0 : exp32 x ≠ 0#8 := by bv_omega
  rw [class32, if_neg h255, if_neg h0]

theorem class64_eq_normal {x : Bits64} (hlow : 1 ≤ (exp64 x).toNat)
    (hhigh : (exp64 x).toNat ≤ 2046) : class64 x = .normal := by
  have h2047 : exp64 x ≠ 2047#11 := by bv_omega
  have h0 : exp64 x ≠ 0#11 := by bv_omega
  rw [class64, if_neg h2047, if_neg h0]

theorem value32_eq_legacyValueSingle {x w : Bits32} (hclass : class32 x = .normal)
    (hS : singleS w = sign32 x) (hL : ((singleL w).toNat : ℤ) = (exp32 x).toNat + 2)
    (hM : singleM w = mant32 x) : value32 x = some (legacyValueSingle w) := by
  have hexp : ((exp32 x).toNat : ℤ) - hostBias32 = (singleL w).toNat - 129 := by
    unfold hostBias32; omega
  simp only [value32, hclass, legacyValueSingle, hS, hM, hexp]

theorem value64_eq_legacyValueDouble {x w : Bits64} (hclass : class64 x = .normal)
    (hS : doubleS w = sign64 x) (hL : ((doubleL w).toNat : ℤ) = (exp64 x).toNat - 894)
    (hM : loadMantissa (doubleF w) = mant64 x) : value64 x = some (legacyValueDouble w) := by
  have hexp : ((exp64 x).toNat : ℤ) - hostBias64 = (doubleL w).toNat - 129 := by
    unfold hostBias64; omega
  simp only [value64, hclass, legacyValueDouble, hS, hM, hexp]

/-! ## Decoding and encoding a normal number -/

theorem decsPattern_keeps_value (p : Params) {w : Bits32} (hlow : 3 ≤ (singleL w).toNat)
    (hhigh : (singleL w).toNat ≤ 254) :
    class32 (decsPattern p w) = .normal ∧
      value32 (decsPattern p w) = some (legacyValueSingle w) := by
  have hexp := toNat_ofInt_of_fits (n := 8) (i := (singleL w).toNat - 2) (by omega) (by omega)
  rw [decsPattern_of_normal p hlow hhigh]
  have hclass : class32 (pack32 (singleS w) (BitVec.ofInt 8 ((singleL w).toNat - 2)) (singleM w))
      = .normal :=
    class32_eq_normal (by rw [exp32_pack32]; omega) (by rw [exp32_pack32]; omega)
  exact ⟨hclass, value32_eq_legacyValueSingle hclass (by simp) (by rw [exp32_pack32]; omega)
    (by simp)⟩

theorem decdPattern_keeps_value (p : Params) {w : Bits64} (hlow : 1 ≤ (doubleL w).toNat)
    (hhigh : (doubleL w).toNat ≤ 254) :
    class64 (decdPattern p w) = .normal ∧
      value64 (decdPattern p w) = some (legacyValueDouble w) := by
  have hexp := toNat_ofInt_of_fits (n := 11) (i := (doubleL w).toNat + 894) (by omega) (by omega)
  rw [decdPattern_of_normal p hlow hhigh]
  have hclass : class64 (pack64 (doubleS w) (BitVec.ofInt 11 ((doubleL w).toNat + 894))
      (loadMantissa (doubleF w))) = .normal :=
    class64_eq_normal (by rw [exp64_pack64]; omega) (by rw [exp64_pack64]; omega)
  exact ⟨hclass, value64_eq_legacyValueDouble hclass (by simp) (by rw [exp64_pack64]; omega)
    (by simp)⟩

theorem encsPattern_keeps_value (p : Params) {x : Bits32} (hlow : 1 ≤ (exp32 x).toNat)
    (hhigh : (exp32 x).toNat ≤ 252) : value32 x = some (legacyValueSingle (encsPattern p x)) := by
  have hnz : ¬ (exp32 x = 0#8 ∧ mant32 x = 0#23) := fun ⟨h, _⟩ => by bv_omega
  have hexp := toNat_ofInt_of_fits (n := 8) (i := (exp32 x).toNat + 2) (by omega) (by omega)
  rw [encsPattern_of_fits p hhigh, if_neg hnz]
  exact value32_eq_legacyValueSingle (class32_eq_normal hlow (by omega)) (by simp)
    (by rw [singleL_packSingle, hexp]) (by simp)

theorem encdPattern_keeps_value (p : Params) {x : Bits64} (hlow : 895 ≤ (exp64 x).toNat)
    (hhigh : (exp64 x).toNat ≤ 1148) :
    value64 x = some (legacyValueDouble (encdPattern p x)) := by
  have hexp := toNat_ofInt_of_fits (n := 8) (i := (exp64 x).toNat - 894) (by omega) (by omega)
  rw [encdPattern_of_normal p hlow hhigh]
  exact value64_eq_legacyValueDouble (class64_eq_normal (by omega) (by omega)) (by simp)
    (by rw [doubleL_packDouble, hexp]) (by simp)

end Sys2Proof.Machine

namespace Sys2Proof.Proofs

open Sys2Proof.Machine

/-- Settles O47: the decoded number has the sign and mantissa of the legacy pattern and its
exponent less the offset. -/
theorem decodingKeepsTheValue : Obligations.DecodingKeepsTheValue := fun p =>
  ⟨fun _ => decsPattern_keeps_value p, fun _ => decdPattern_keeps_value p⟩

/-- Settles O48: the legacy pattern has the sign and mantissa of the host number and its exponent
plus the offset, and the offset takes it past no end of the field. -/
theorem encodingKeepsTheValueInRange : Obligations.EncodingKeepsTheValueInRange := fun p =>
  ⟨fun _ => encsPattern_keeps_value p, fun _ => encdPattern_keeps_value p⟩

end Sys2Proof.Proofs
end

section
/-!
SUPPORT. The integer codec on byte sequences (41_integer_codec.md R70 to R72): the 16-bit operand
is the number of its two lanes, ENCI and DECI put it on the bus as it stands, and so each undoes
the other.
-/

namespace Sys2Proof.Machine

/-! ## The operand and its two bytes -/

/-- The int16 operand is `word(B)` of the two lowest lanes. -/
theorem low16_toNat_eq_wordOf (d : Data) : (low16 d).toNat = wordOf [lane d 0, lane d 1] := by
  have hbytes : bytesOf 2 d.toNat = [lane d 0, lane d 1] := bytesOf_toNat 2 d
  rw [← hbytes, wordOf_bytesOf_eq_mod, low16_toNat, pow_zero, Nat.div_one]

theorem zext16_eq_ofNat (v : BitVec 16) : zext16 v = BitVec.ofNat 64 v.toNat :=
  (BitVec.ofNat_toNat 64 v).symm

theorem zext16_low16 (d : Data) :
    zext16 (low16 d) = BitVec.ofNat 64 (wordOf [lane d 0, lane d 1]) := by
  rw [zext16_eq_ofNat, low16_toNat_eq_wordOf]

/-- A presented 2-byte sequence is read as its word. -/
theorem low16_lanesOf_toNat {bs : List Byte} (hlen : bs.length = 2) :
    (low16 (lanesOf bs)).toNat = wordOf bs := by
  obtain ⟨hread, -⟩ := Proofs.presentedSequenceIsReadAsItsWord bs _ _ (presents_lanesOf bs)
  exact hread hlen

theorem wordOf_pair (b0 b1 : Byte) : wordOf [b0, b1] = b1.toNat * 256 + b0.toNat := by
  rw [wordOf_cons, wordOf_cons, wordOf_nil]
  omega

/-- The sign of an int16 is the top bit of its high byte. -/
theorem valueInt16_of_bytes (b0 b1 : Byte) :
    valueInt16 (BitVec.ofNat 16 (b1.toNat * 256 + b0.toNat))
      = (b1.toNat % 128 * 256 + b0.toNat : Int) - 2 ^ 15 * (b1.toNat / 128 : Nat) := by
  have h0 := b0.isLt
  have h1 := b1.isLt
  rw [valueInt16, Laws.toNat_slice, Laws.toNat_slice, BitVec.toNat_ofNat]
  omega

/-! ## ENCI and DECI -/

theorem enci_low16 (d : Data) :
    enci (low16 d) = okResponse 2#4 (BitVec.ofNat 64 (wordOf [lane d 0, lane d 1])) := by
  rw [enci, zext16_low16]

@[simp] theorem enci_outData (v : BitVec 16) : (enci v).outData = zext16 v := rfl

theorem enci_bytes (v : BitVec 16) : (enci v).bytes = bytesOf 2 v.toNat := by
  rw [← zext16_toNat v]; rfl

/-- At its own length DECI answers the two low lanes as ENCI of them does. -/
theorem deci_two (d : Data) : deci 2#4 d = enci (low16 d) := checkLength_of_eq rfl

theorem deci_of_ne {inLen : Len} (h : inLen ≠ 2#4) (d : Data) : deci inLen d = raise .lengthError :=
  checkLength_of_ne h

theorem deci_enci (v : BitVec 16) : deci 2#4 (enci v).outData = enci v := by
  rw [deci_two, enci_outData, low16_zext16]

theorem enci_deci_bytes {bs : List Byte} (hlen : bs.length = 2) :
    (enci (low16 (deci 2#4 (lanesOf bs)).outData)).bytes = bs := by
  rw [deci_two, enci_outData, low16_zext16, enci_bytes, low16_lanesOf_toNat hlen, ← hlen,
    bytesOf_wordOf]

end Sys2Proof.Machine

namespace Sys2Proof.Proofs

open Sys2Proof.Machine

/-- Settles O17: ENCI only answers, and the data of its answer is the word of the two low lanes. -/
theorem enciAnswersItsTwoBytes : Obligations.EnciAnswersItsTwoBytes :=
  fun _ d s => congrArg (answer · s) (enci_low16 d)

/-- Settles O18: DECI only answers, by the length check and then as ENCI of the same two lanes. -/
theorem deciAnswersTheIntegerOfTwoBytes : Obligations.DeciAnswersTheIntegerOfTwoBytes := by
  intro l d s b0 b1
  refine ⟨?answers, valueInt16_of_bytes (lane d 0) (lane d 1)⟩
  by_cases hl : l = 2#4
  case neg =>
    rw [if_pos hl]
    exact congrArg (answer · s) (deci_of_ne hl d)
  case pos =>
    have hdeci : deci 2#4 d = okResponse 2#4 (BitVec.ofNat 64 (b1 * 256 + b0)) := by
      rw [deci_two, enci_low16, wordOf_pair]
      rfl
    rw [if_neg (not_not_intro hl), hl]
    exact congrArg (answer · s) hdeci

/-- Settles O32: DECI of what ENCI answers is the same answer, and both keep a 2-byte sequence's
word. -/
theorem integerCodecRoundTrips : Obligations.IntegerCodecRoundTrips := by
  refine ⟨fun v => ?decodeOfEncode, fun b0 b1 => enci_deci_bytes (bs := [b0, b1]) rfl⟩
  rw [deci_enci]
  exact ⟨rfl, low16_zext16 v⟩

end Sys2Proof.Proofs
end

section
/-!
SUPPORT. The single codec by the classes of its operand (42_single_codec.md R80 to R84): what ENCS
and DECS answer for each class, once with the fields of the patterns and once as the spec's
numbers, and which patterns each of the two takes back to where it came from.
-/

namespace Sys2Proof.Machine

/-! ## Fields and patterns as the spec's shifted numbers (40_data_formats.md R51, R55) -/

theorem pack32_toNat_eq_or (s : BitVec 1) (e : BitVec 8) (m : BitVec 23) :
    (pack32 s e m).toNat = (s.toNat <<< 31) ||| (e.toNat <<< 23) ||| m.toNat := by
  simp only [pack32, BitVec.toNat_append, Nat.shiftLeft_or_distrib, ← Nat.shiftLeft_add]

theorem packSingle_toNat_eq_or (l : BitVec 8) (s : BitVec 1) (m : BitVec 23) :
    (packSingle l s m).toNat = (l.toNat <<< 24) ||| (s.toNat <<< 23) ||| m.toNat := by
  simp only [packSingle, BitVec.toNat_append, Nat.shiftLeft_or_distrib, ← Nat.shiftLeft_add]

theorem nanSingle_toNat (p : Params) :
    (nanSingle p).toNat = (0xFF <<< 24) ||| (p.nanSign.toNat <<< 23) := by
  rw [nanSingle, packSingle_toNat_eq_or, BitVec.toNat_zero, Nat.or_zero]
  rfl

theorem ovfSingle_toNat (s : BitVec 1) :
    (ovfSingle s).toNat = (0xFF <<< 24) ||| (s.toNat <<< 23) ||| 0x7FFFFF :=
  packSingle_toNat_eq_or _ s _

theorem zeroSingle_toNat (s : BitVec 1) : (zeroSingle s).toNat = s.toNat <<< 23 := by
  rw [zeroSingle, packSingle_toNat_eq_or, BitVec.toNat_zero, Nat.zero_shiftLeft, Nat.zero_or,
    BitVec.toNat_zero, Nat.or_zero]

theorem inf32_toNat (s : BitVec 1) : (inf32 s).toNat = (s.toNat <<< 31) ||| (0xFF <<< 23) := by
  rw [inf32, pack32_toNat_eq_or, BitVec.toNat_zero, Nat.or_zero]
  rfl

theorem hostZero32_toNat (s : BitVec 1) : (hostZero32 s).toNat = s.toNat <<< 31 := by
  rw [hostZero32, pack32_toNat_eq_or, BitVec.toNat_zero, Nat.zero_shiftLeft, Nat.or_zero,
    BitVec.toNat_zero, Nat.or_zero]

theorem low32_toNat_eq_mod (d : Data) : (low32 d).toNat = d.toNat % 2 ^ 32 := by
  rw [low32_toNat, pow_zero, Nat.div_one]

theorem zext32_eq_ofNat (v : Bits32) : zext32 v = BitVec.ofNat 64 v.toNat :=
  (BitVec.ofNat_toNat 64 v).symm

section Fields

variable (x : Bits32)

theorem sign32_toNat_eq_shift : (sign32 x).toNat = x.toNat >>> 31 := by
  have hx := x.isLt
  rw [sign32_toNat, Nat.shiftRight_eq_div_pow]
  omega

theorem exp32_toNat_eq_shift : (exp32 x).toNat = (x.toNat >>> 23) % 256 := by
  rw [exp32_toNat, Nat.shiftRight_eq_div_pow]
  rfl

theorem mant32_toNat_eq_mod : (mant32 x).toNat = x.toNat % 2 ^ 23 := by
  rw [mant32_toNat, pow_zero, Nat.div_one]

theorem singleL_toNat_eq_shift : (singleL x).toNat = x.toNat >>> 24 := by
  have hx := x.isLt
  rw [singleL_toNat, Nat.shiftRight_eq_div_pow]
  omega

theorem singleS_toNat_eq_shift : (singleS x).toNat = (x.toNat >>> 23) % 2 := by
  rw [singleS_toNat, Nat.shiftRight_eq_div_pow]
  rfl

theorem singleM_toNat_eq_mod : (singleM x).toNat = x.toNat % 2 ^ 23 := by
  rw [singleM_toNat, pow_zero, Nat.div_one]

end Fields

/-! ## The offset on the exponent field (40_data_formats.md R60, R64) -/

theorem toNat_add_two {e : BitVec 8} (he : e.toNat ≤ 252) : (e + 2#8).toNat = e.toNat + 2 := by
  bv_omega

theorem toNat_sub_two {l : BitVec 8} (hl : 2 ≤ l.toNat) : (l - 2#8).toNat = l.toNat - 2 := by
  bv_omega

/-! ## The classes of a binary32 by its fields (40_data_formats.md R53) -/

section Classes

variable {x : Bits32}

theorem class32_eq_infinity_iff_fields :
    class32 x = .infinity ↔ exp32 x = 255#8 ∧ mant32 x = 0#23 := by
  rw [class32]
  split_ifs <;> simp_all

theorem class32_eq_infinity_iff : class32 x = .infinity ↔ x = inf32 (sign32 x) := by
  rw [class32_eq_infinity_iff_fields, eq_comm (a := x), inf32, pack32_inj_iff]
  grind

theorem class32_eq_zero_iff_fields : class32 x = .zero ↔ exp32 x = 0#8 ∧ mant32 x = 0#23 := by
  rw [class32]
  split_ifs <;> simp_all

theorem class32_eq_zero_iff : class32 x = .zero ↔ x = hostZero32 (sign32 x) := by
  rw [class32_eq_zero_iff_fields, eq_comm (a := x), hostZero32, pack32_inj_iff]
  grind

theorem exp32_of_subnormal (h : class32 x = .subnormal) : exp32 x = 0#8 := by
  rw [class32] at h
  split_ifs at h
  assumption

theorem exp32_ne_of_finite (hnan : class32 x ≠ .nan) (hinf : class32 x ≠ .infinity) :
    exp32 x ≠ 255#8 := by
  intro he
  rw [class32, if_pos he] at hnan hinf
  split_ifs at hnan hinf
  · exact hinf rfl
  · exact hnan rfl

end Classes

/-! ## ENCS by classes -/

section Encs

variable (p : Params) {x : Bits32}

theorem encsPattern_of_nan (h : class32 x = .nan) : encsPattern p x = nanSingle p :=
  if_pos (class32_eq_nan_iff.1 h)

/-- An infinity saturates as a large finite number does: its exponent field is over the limit
too. -/
theorem encsPattern_of_saturated (h : class32 x ≠ .nan) (he : 253 ≤ (exp32 x).toNat) :
    encsPattern p x = ovfSingle (sign32 x) := by
  have hl : ((exp32 x).toNat : ℤ) + offSingle > lMax := by unfold offSingle lMax; omega
  exact (if_neg (mt class32_eq_nan_iff.2 h)).trans (if_pos hl)

theorem encsPattern_of_zero (h : class32 x = .zero) :
    encsPattern p x = zeroSingle (sign32 x) := by
  have hzero := class32_eq_zero_iff_fields.1 h
  rw [encsPattern_of_fits p (by rw [hzero.1]; decide), if_pos hzero]

/-- In range the exponent field moves up by the offset; a subnormal is stored the same way. -/
theorem encsPattern_of_stored (h : class32 x ≠ .zero) (he : (exp32 x).toNat ≤ 252) :
    encsPattern p x = packSingle (exp32 x + 2#8) (sign32 x) (mant32 x) := by
  have hexp : BitVec.ofInt 8 ((exp32 x).toNat + 2) = exp32 x + 2#8 := by
    rw [BitVec.ofInt_add, BitVec.ofInt_natCast, BitVec.ofNat_toNat, BitVec.setWidth_eq]
    rfl
  rw [encsPattern_of_fits p he, if_neg (mt class32_eq_zero_iff_fields.2 h), hexp]

/-- The four tests of R80, each with what it answers. -/
theorem encsPattern_cases (x : Bits32) :
    (class32 x = .nan ∧ encsPattern p x = nanSingle p) ∨
    (class32 x ≠ .nan ∧ 253 ≤ (exp32 x).toNat ∧ encsPattern p x = ovfSingle (sign32 x)) ∨
    (class32 x = .zero ∧ encsPattern p x = zeroSingle (sign32 x)) ∨
    (class32 x ≠ .zero ∧ (exp32 x).toNat ≤ 252 ∧
      encsPattern p x = packSingle (exp32 x + 2#8) (sign32 x) (mant32 x)) := by
  by_cases hnan : class32 x = .nan
  · exact .inl ⟨hnan, encsPattern_of_nan p hnan⟩
  · rcases Nat.lt_or_ge 252 (exp32 x).toNat with he | he
    · exact .inr (.inl ⟨hnan, he, encsPattern_of_saturated p hnan he⟩)
    · by_cases hzero : class32 x = .zero
      · exact .inr (.inr (.inl ⟨hzero, encsPattern_of_zero p hzero⟩))
      · exact .inr (.inr (.inr ⟨hzero, he, encsPattern_of_stored p hzero he⟩))

@[simp] theorem encsPattern_inf32 (s : BitVec 1) : encsPattern p (inf32 s) = ovfSingle s := by
  have hinf : class32 (inf32 s) = .infinity := class32_eq_infinity_iff.2 (by simp [inf32])
  rw [encsPattern_of_saturated p (by simp [hinf]) (by simp [inf32]), inf32, sign32_pack32]

@[simp] theorem encsPattern_hostZero32 (s : BitVec 1) :
    encsPattern p (hostZero32 s) = zeroSingle s := by
  rw [encsPattern_of_zero p (class32_eq_zero_iff.2 (by simp [hostZero32])), hostZero32,
    sign32_pack32]

theorem encsPattern_toNat (x : Bits32) :
    (encsPattern p x).toNat =
      if (exp32 x).toNat = 255 ∧ (mant32 x).toNat ≠ 0 then
        (0xFF <<< 24) ||| (p.nanSign.toNat <<< 23)
      else if (exp32 x).toNat + 2 > 254 then
        (0xFF <<< 24) ||| ((sign32 x).toNat <<< 23) ||| 0x7FFFFF
      else if (exp32 x).toNat = 0 ∧ (mant32 x).toNat = 0 then (sign32 x).toNat <<< 23
      else (((exp32 x).toNat + 2) <<< 24) ||| ((sign32 x).toNat <<< 23) ||| (mant32 x).toNat := by
  have hnanIff : class32 x = .nan ↔ (exp32 x).toNat = 255 ∧ (mant32 x).toNat ≠ 0 := by
    rw [class32_eq_nan_iff, ← BitVec.toNat_inj, ne_eq, ← BitVec.toNat_inj]; rfl
  have hzeroIff : class32 x = .zero ↔ (exp32 x).toNat = 0 ∧ (mant32 x).toNat = 0 := by
    rw [class32_eq_zero_iff_fields, ← BitVec.toNat_inj, ← BitVec.toNat_inj]; rfl
  rcases encsPattern_cases p x with
    ⟨hnan, hw⟩ | ⟨hnan, he, hw⟩ | ⟨hzero, hw⟩ | ⟨hzero, he, hw⟩
  · rw [hw, nanSingle_toNat, if_pos (hnanIff.1 hnan)]
  · rw [hw, ovfSingle_toNat, if_neg (mt hnanIff.2 hnan), if_pos (by omega)]
  · have hfields := hzeroIff.1 hzero
    rw [hw, zeroSingle_toNat, if_neg (by omega), if_neg (by omega), if_pos hfields]
  · have hexp : (exp32 x + 2#8).toNat = (exp32 x).toNat + 2 := toNat_add_two he
    rw [hw, packSingle_toNat_eq_or, hexp, if_neg (by omega), if_neg (by omega),
      if_neg (mt hzeroIff.2 hzero)]

end Encs

/-! ## DECS by the exponent field -/

section Decs

variable (p : Params) {w : Bits32}

theorem decsPattern_of_nan (hL : singleL w = 0xFF#8) (hM : singleM w = 0#23) :
    decsPattern p w = p.hostQnan32 := by
  rw [decsPattern, if_pos hL, if_pos hM]

theorem decsPattern_of_infinity (hL : singleL w = 0xFF#8) (hM : singleM w ≠ 0#23) :
    decsPattern p w = inf32 (singleS w) := by
  rw [decsPattern, if_pos hL, if_neg hM]

theorem decsPattern_of_zero (hL : singleL w = 0#8) :
    decsPattern p w = hostZero32 (singleS w) := by
  rw [decsPattern, if_neg (by rw [hL]; decide), if_pos hL]

theorem sglDecL1_ne_zero_iff : p.sglDecL1 ≠ .zero ↔ p.sglDecL1 = .wrap := by
  cases p.sglDecL1 <;> decide

/-- The wrapped host exponent of an exponent field of 1 is all ones (40_data_formats.md R67). -/
theorem decsPattern_of_one_wrap (hL : singleL w = 1#8) (hp : p.sglDecL1 = .wrap) :
    decsPattern p w = pack32 (singleS w) 255#8 (singleM w) := by
  rw [decsPattern, if_neg (by rw [hL]; decide), if_neg (by rw [hL]; decide), if_pos hL, hp]
  rfl

theorem decsPattern_of_one_zero (hL : singleL w = 1#8) (hp : p.sglDecL1 = .zero) :
    decsPattern p w = hostZero32 (singleS w) := by
  rw [decsPattern, if_neg (by rw [hL]; decide), if_neg (by rw [hL]; decide), if_pos hL, hp]

/-- From 2 on the exponent field moves down by the offset. -/
theorem decsPattern_of_stored (hlow : 2 ≤ (singleL w).toNat) (hhigh : (singleL w).toNat ≤ 254) :
    decsPattern p w = pack32 (singleS w) (singleL w - 2#8) (singleM w) := by
  have hFF : singleL w ≠ 0xFF#8 := by bv_omega
  have h0 : singleL w ≠ 0#8 := by bv_omega
  have h1 : singleL w ≠ 1#8 := by bv_omega
  have hexp : BitVec.ofInt 8 ((singleL w).toNat - offSingle) = singleL w - 2#8 := by
    rw [sub_eq_add_neg, BitVec.ofInt_add, BitVec.ofInt_natCast, BitVec.ofNat_toNat,
      BitVec.setWidth_eq, BitVec.sub_eq_add_neg]
    rfl
  rw [decsPattern, if_neg hFF, if_neg h0, if_neg h1, hexp]

@[simp] theorem decsPattern_nanSingle : decsPattern p (nanSingle p) = p.hostQnan32 :=
  decsPattern_of_nan p (by simp [nanSingle]) (by simp [nanSingle])

@[simp] theorem decsPattern_ovfSingle (s : BitVec 1) : decsPattern p (ovfSingle s) = inf32 s := by
  rw [decsPattern_of_infinity p (by simp [ovfSingle]) (by simp [ovfSingle]), ovfSingle,
    singleS_packSingle]

@[simp] theorem decsPattern_zeroSingle (s : BitVec 1) :
    decsPattern p (zeroSingle s) = hostZero32 s := by
  rw [decsPattern_of_zero p (by simp [zeroSingle]), zeroSingle, singleS_packSingle]

theorem decsPattern_toNat (w : Bits32) :
    (decsPattern p w).toNat =
      if (singleL w).toNat = 0xFF then
        (if (singleM w).toNat = 0 then p.hostQnan32.toNat
         else ((singleS w).toNat <<< 31) ||| (0xFF <<< 23))
      else if (singleL w).toNat = 0 then (singleS w).toNat <<< 31
      else if (singleL w).toNat = 1 then
        (if p.sglDecL1 = .wrap then
          ((singleS w).toNat <<< 31) ||| (0xFF <<< 23) ||| (singleM w).toNat
         else (singleS w).toNat <<< 31)
      else
        ((singleS w).toNat <<< 31) ||| (((singleL w).toNat - 2) <<< 23) ||| (singleM w).toNat := by
  split_ifs with hFF hM h0 h1 hwrap
  · rw [decsPattern_of_nan p (BitVec.eq_of_toNat_eq hFF) (BitVec.eq_of_toNat_eq hM)]
  · have hM' : singleM w ≠ 0#23 := fun h => hM (congrArg BitVec.toNat h)
    rw [decsPattern_of_infinity p (BitVec.eq_of_toNat_eq hFF) hM', inf32_toNat]
  · rw [decsPattern_of_zero p (BitVec.eq_of_toNat_eq h0), hostZero32_toNat]
  · rw [decsPattern_of_one_wrap p (BitVec.eq_of_toNat_eq h1) hwrap, pack32_toNat_eq_or]
    rfl
  · have hzero : p.sglDecL1 = .zero := not_not.1 (mt (sglDecL1_ne_zero_iff p).1 hwrap)
    rw [decsPattern_of_one_zero p (BitVec.eq_of_toNat_eq h1) hzero, hostZero32_toNat]
  · have hlow : 2 ≤ (singleL w).toNat := by omega
    have hexp : (singleL w - 2#8).toNat = (singleL w).toNat - 2 := toNat_sub_two hlow
    rw [decsPattern_of_stored p hlow (by omega), pack32_toNat_eq_or, hexp]

end Decs

/-! ## One after the other (42_single_codec.md R82, R83) -/

section RoundTrip

variable (p : Params) {x w : Bits32}

/-- Up to the largest exponent that fits, DECS undoes ENCS. -/
theorem decsPattern_encsPattern (he : (exp32 x).toNat ≤ 252) :
    decsPattern p (encsPattern p x) = x := by
  by_cases hzero : class32 x = .zero
  · rw [encsPattern_of_zero p hzero, decsPattern_zeroSingle, ← class32_eq_zero_iff.1 hzero]
  · have hexp : (exp32 x + 2#8).toNat = (exp32 x).toNat + 2 := toNat_add_two he
    rw [encsPattern_of_stored p hzero he,
      decsPattern_of_stored p (by rw [singleL_packSingle]; omega)
        (by rw [singleL_packSingle]; omega),
      singleL_packSingle, singleS_packSingle, singleM_packSingle, BitVec.add_sub_cancel,
      pack32_fields]

/-- ENCS undoes DECS on a stored pattern, unless it is decoded to a host zero. -/
theorem encsPattern_decsPattern (hlow : 2 ≤ (singleL w).toNat) (hhigh : (singleL w).toNat ≤ 254)
    (hzero : ¬ (singleL w = 2#8 ∧ singleM w = 0#23)) :
    encsPattern p (decsPattern p w) = w := by
  have hexp : (singleL w - 2#8).toNat = (singleL w).toNat - 2 := toNat_sub_two hlow
  have hclass : class32 (pack32 (singleS w) (singleL w - 2#8) (singleM w)) ≠ .zero := by
    rw [ne_eq, class32_eq_zero_iff_fields, exp32_pack32, mant32_pack32]
    exact fun ⟨hL, hM⟩ => hzero ⟨by bv_omega, hM⟩
  rw [decsPattern_of_stored p hlow hhigh,
    encsPattern_of_stored p hclass (by rw [exp32_pack32]; omega),
    exp32_pack32, sign32_pack32, mant32_pack32, BitVec.sub_add_cancel, packSingle_fields]

theorem class32_hostQnan32 (hp : p.wf = true) : class32 p.hostQnan32 = .nan := by
  rw [Params.wf, Bool.and_eq_true] at hp
  exact eq_of_beq hp.1

end RoundTrip

/-! ## The responses -/

section Responses

variable (p : Params) (x : Bits32)

@[simp] theorem encs_outData : (encs p x).outData = zext32 (encsPattern p x) := rfl

theorem encs_bytes : (encs p x).bytes = bytesOf 4 (encsPattern p x).toNat := by
  rw [← zext32_toNat]; rfl

theorem decs_four (d : Data) : decs p 4#4 d = okResponse 4#4 (zext32 (decsPattern p (low32 d))) :=
  checkLength_of_eq rfl

theorem decs_encs :
    decs p 4#4 (encs p x).outData = okResponse 4#4 (zext32 (decsPattern p (encsPattern p x))) := by
  rw [decs_four, encs_outData, low32_zext32]

theorem low32_decs_encs :
    low32 (decs p 4#4 (encs p x).outData).outData = decsPattern p (encsPattern p x) := by
  rw [decs_encs, okResponse_outData, low32_zext32]

end Responses

end Sys2Proof.Machine

namespace Sys2Proof.Proofs

open Sys2Proof.Machine

/-- Settles O19: ENCS only answers, and the number of its pattern is the chain of R80 over the
fields of the operand. -/
theorem encsAnswersTheLegacySingle : Obligations.EncsAnswersTheLegacySingle := by
  intro l d s x sgn e m w
  have hw : (encsPattern s.params (low32 d)).toNat = w := by
    rw [encsPattern_toNat, sign32_toNat_eq_shift, exp32_toNat_eq_shift, mant32_toNat_eq_mod,
      low32_toNat_eq_mod]
  have hencs : encs s.params (low32 d) = okResponse 4#4 (BitVec.ofNat 64 w) := by
    rw [encs, zext32_eq_ofNat, hw]
  exact congrArg (answer · s) hencs

/-- Settles O20: DECS of four bytes only answers, and the number of its pattern is the cases of R81
over the fields of the operand. -/
theorem decsAnswersTheBinary32 : Obligations.DecsAnswersTheBinary32 := by
  intro d s w l sgn m x
  have hx : (decsPattern s.params (low32 d)).toNat = x := by
    rw [decsPattern_toNat, singleL_toNat_eq_shift, singleS_toNat_eq_shift, singleM_toNat_eq_mod,
      low32_toNat_eq_mod]
  have hdecs : decs s.params 4#4 d = okResponse 4#4 (BitVec.ofNat 64 x) := by
    rw [decs_four, zext32_eq_ofNat, hx]
  exact congrArg (answer · s) hdecs

/-- Settles O33: zeros, subnormals and normals up to exponent 252 are kept by the round trip in
range; the rest becomes one of the special patterns, whose decoding is known. -/
theorem singleHostRoundTrip : Obligations.SingleHostRoundTrip := by
  intro p x
  rw [low32_decs_encs]
  refine ⟨?kept, ?saturated, ?nan⟩
  case kept =>
    rintro (hzero | hsub | hinf | ⟨-, he⟩)
    · rw [class32_eq_zero_iff_fields] at hzero
      exact decsPattern_encsPattern p (by rw [hzero.1]; decide)
    · exact decsPattern_encsPattern p (by rw [exp32_of_subnormal hsub]; decide)
    · rw [class32_eq_infinity_iff.1 hinf, encsPattern_inf32, decsPattern_ovfSingle]
    · exact decsPattern_encsPattern p he
  case saturated =>
    intro hnormal he
    rw [encsPattern_of_saturated p (by simp [hnormal]) he, decsPattern_ovfSingle]
  case nan =>
    intro hnan
    rw [encsPattern_of_nan p hnan, decsPattern_nanSingle]

/-- Settles O34: a saturated number and the infinity of its sign share the overflow pattern; the two
boundary patterns are the last stored one and the first saturated one. -/
theorem singleSaturationIsLossy : Obligations.SingleSaturationIsLossy := by
  intro p
  refine ⟨fun x hnan _ he => ?lossy, ?lastKept, ?firstSaturated⟩
  case lossy =>
    have hovf := encsPattern_of_saturated p hnan he
    exact ⟨by rw [encs, encs, hovf, encsPattern_inf32],
      by rw [low32_decs_encs, hovf, decsPattern_ovfSingle]⟩
  case lastKept =>
    rw [encs_bytes, encsPattern_of_stored p (by decide) (by decide)]
    decide
  case firstSaturated =>
    rw [encs_bytes, encsPattern_of_saturated p (by decide) (by decide)]
    decide

/-- Settles O35: the canonical pattern decodes to HOST_QNAN32, which is a NaN for legal
parameters. -/
theorem singleNaNsBecomeOnePattern : Obligations.SingleNaNsBecomeOnePattern := by
  intro p x hp hnan
  have hpattern := encsPattern_of_nan p hnan
  have hdecoded : low32 (decs p 4#4 (encs p x).outData).outData = p.hostQnan32 := by
    rw [low32_decs_encs, hpattern, decsPattern_nanSingle]
  refine ⟨?_, hdecoded, ?_⟩
  · rw [encs_outData, zext32_toNat, hpattern, nanSingle_toNat]
  · rw [hdecoded, class32_hostQnan32 p hp]

/-- Settles O36: both zeros are in the range that the round trip keeps. -/
theorem singleZerosKeepTheirSign : Obligations.SingleZerosKeepTheirSign := by
  intro p
  refine ⟨?posBytes, ?negBytes, ?posBack, ?negBack⟩
  case posBytes =>
    rw [encs_bytes, encsPattern_of_zero p (by decide)]
    decide
  case negBytes =>
    rw [encs_bytes, encsPattern_of_zero p (by decide)]
    decide
  case posBack =>
    rw [decs_encs, decsPattern_encsPattern p (by decide)]
    decide
  case negBack =>
    rw [decs_encs, decsPattern_encsPattern p (by decide)]
    decide

/-- Settles O37: each of the four tests of R80 emits patterns of the list; of the patterns in the
list, DECS finds an operand of the stored ones, and the special ones have theirs by construction. -/
theorem encsEmitsExactlyThesePatterns : Obligations.EncsEmitsExactlyThesePatterns := by
  intro p w
  have hpos : ovfSingle 0#1 = 0xFF7FFFFF#32 := by decide
  have hneg : ovfSingle 1#1 = 0xFFFFFFFF#32 := by decide
  rw [← nanSingle_toNat, BitVec.toNat_inj, ← hpos, ← hneg]
  constructor
  case mp =>
    rintro ⟨x, rfl⟩
    rcases encsPattern_cases p x with ⟨-, hw⟩ | ⟨-, -, hw⟩ | ⟨-, hw⟩ | ⟨hzero, he, hw⟩
    · simp [hw]
    · rcases BitVec.eq_zero_or_eq_one (sign32 x) with hs | hs <;> simp [hw, hs]
    · simp [hw, zeroSingle]
    · have hexp : (exp32 x + 2#8).toNat = (exp32 x).toNat + 2 := toNat_add_two he
      rw [ne_eq, class32_eq_zero_iff_fields, ← BitVec.toNat_inj, ← BitVec.toNat_inj] at hzero
      rw [hw, singleL_packSingle, singleM_packSingle, hexp]
      rcases Nat.eq_zero_or_pos (exp32 x).toNat with h0 | hnormal
      · exact .inr (.inl ⟨by omega, fun hM => hzero ⟨h0, hM⟩⟩)
      · exact .inr (.inr (.inl ⟨by omega, by omega⟩))
  case mpr =>
    rintro (⟨hL, hM⟩ | ⟨hL, hM⟩ | ⟨hlow, hhigh⟩ | rfl | rfl | rfl)
    · refine ⟨hostZero32 (singleS w), ?_⟩
      rw [encsPattern_hostZero32, zeroSingle, packSingle_inj_iff]
      exact ⟨(BitVec.eq_of_toNat_eq hL).symm, rfl, (BitVec.eq_of_toNat_eq hM).symm⟩
    · exact ⟨decsPattern p w, encsPattern_decsPattern p (by omega) (by omega)
        fun h => hM (congrArg BitVec.toNat h.2)⟩
    · exact ⟨decsPattern p w, encsPattern_decsPattern p (by omega) hhigh
        fun h => by bv_omega⟩
    · exact ⟨0x7FC00000#32, encsPattern_of_nan p (by decide)⟩
    · exact ⟨inf32 0#1, encsPattern_inf32 p 0#1⟩
    · exact ⟨inf32 1#1, encsPattern_inf32 p 1#1⟩

/-- Settles O38: what DECS makes of a pattern is a special host number, whose encoding is known, or
a stored pattern that ENCS takes back. -/
theorem singleLegacyRoundTrip : Obligations.SingleLegacyRoundTrip := by
  intro p w hp
  split_ifs with hFF hM hzero h1 hpolicy hM
  · rw [decsPattern_of_nan p hFF hM, encsPattern_of_nan p (class32_hostQnan32 p hp)]
  · rw [decsPattern_of_infinity p hFF hM, encsPattern_inf32]
  · have hdecoded : decsPattern p w = hostZero32 (singleS w) := by
      rcases hzero with h0 | ⟨h2, hM⟩
      · exact decsPattern_of_zero p h0
      · rw [decsPattern_of_stored p (by rw [h2]; decide) (by rw [h2]; decide), h2, hM]
        rfl
    rw [hdecoded, encsPattern_hostZero32]
  · rw [decsPattern_of_one_zero p h1 hpolicy, encsPattern_hostZero32]
  · rw [decsPattern_of_one_wrap p h1 ((sglDecL1_ne_zero_iff p).1 hpolicy), hM]
    exact encsPattern_inf32 p (singleS w)
  · rw [decsPattern_of_one_wrap p h1 ((sglDecL1_ne_zero_iff p).1 hpolicy)]
    exact encsPattern_of_nan p (class32_eq_nan_iff.2 (by simp [hM]))
  · rw [not_or] at hzero
    exact encsPattern_decsPattern p (by bv_omega) (by bv_omega) hzero.2

end Sys2Proof.Proofs
end

section
/-!
SUPPORT. The double codec by the classes of its operand (43_double_codec.md R100 to R104): what ENCD
and DECD answer in each case, once with the fields of the patterns and once as the spec's numbers,
and what is left of a pattern after one of them and then the other.
-/

namespace Sys2Proof.Machine

/-! ## Fields and patterns as the spec's shifted numbers (40_data_formats.md R52, R56) -/

theorem pack64_toNat_eq_or (s : BitVec 1) (e : BitVec 11) (m : BitVec 52) :
    (pack64 s e m).toNat = (s.toNat <<< 63) ||| (e.toNat <<< 52) ||| m.toNat := by
  simp only [pack64, BitVec.toNat_append, Nat.shiftLeft_or_distrib, ← Nat.shiftLeft_add]

theorem packDouble_toNat_eq_or (l : BitVec 8) (s : BitVec 1) (f : BitVec 55) :
    (packDouble l s f).toNat = (l.toNat <<< 56) ||| (s.toNat <<< 55) ||| f.toNat := by
  simp only [packDouble, BitVec.toNat_append, Nat.shiftLeft_or_distrib, ← Nat.shiftLeft_add]

theorem nanDouble_toNat (p : Params) :
    (nanDouble p).toNat = (0xFF <<< 56) ||| (p.nanSign.toNat <<< 55) := by
  rw [nanDouble, packDouble_toNat_eq_or, BitVec.toNat_zero, Nat.or_zero]
  rfl

theorem ovfDouble_toNat (s : BitVec 1) :
    (ovfDouble s).toNat = (0xFF <<< 56) ||| (s.toNat <<< 55) ||| 0x7FFFFFFFFFFFFF :=
  packDouble_toNat_eq_or 0xFF#8 s (BitVec.allOnes 55)

theorem zeroDouble_toNat (s : BitVec 1) : (zeroDouble s).toNat = s.toNat <<< 55 := by
  rw [zeroDouble, packDouble_toNat, Nat.shiftLeft_eq]
  simp

theorem inf64_toNat (s : BitVec 1) : (inf64 s).toNat = (s.toNat <<< 63) ||| (0x7FF <<< 52) := by
  rw [inf64, pack64_toNat_eq_or, BitVec.toNat_zero, Nat.or_zero]
  rfl

theorem hostZero64_toNat (s : BitVec 1) : (hostZero64 s).toNat = s.toNat <<< 63 := by
  rw [hostZero64, pack64_toNat, Nat.shiftLeft_eq]
  simp

theorem storeMantissa_toNat_eq_shift (m : BitVec 52) : (storeMantissa m).toNat = m.toNat <<< 3 := by
  rw [storeMantissa_toNat, Nat.shiftLeft_eq]

theorem loadMantissa_toNat_eq_shift (f : BitVec 55) : (loadMantissa f).toNat = f.toNat >>> 3 := by
  rw [loadMantissa_toNat, Nat.shiftRight_eq_div_pow]

section Fields

variable (x : Bits64)

theorem sign64_toNat_eq_shift : (sign64 x).toNat = x.toNat >>> 63 := by
  have hx := x.isLt
  rw [sign64_toNat, Nat.shiftRight_eq_div_pow]
  omega

theorem exp64_toNat_eq_shift : (exp64 x).toNat = (x.toNat >>> 52) % 2048 := by
  rw [exp64_toNat, Nat.shiftRight_eq_div_pow]
  rfl

theorem mant64_toNat_eq_mod : (mant64 x).toNat = x.toNat % 2 ^ 52 := by
  rw [mant64_toNat, pow_zero, Nat.div_one]

theorem doubleL_toNat_eq_shift : (doubleL x).toNat = x.toNat >>> 56 := by
  have hx := x.isLt
  rw [doubleL_toNat, Nat.shiftRight_eq_div_pow]
  omega

theorem doubleS_toNat_eq_shift : (doubleS x).toNat = (x.toNat >>> 55) % 2 := by
  rw [doubleS_toNat, Nat.shiftRight_eq_div_pow]
  rfl

theorem doubleF_toNat_eq_mod : (doubleF x).toNat = x.toNat % 2 ^ 55 := by
  rw [doubleF_toNat, pow_zero, Nat.div_one]

end Fields

/-! ## The offset on the exponent field (40_data_formats.md R60, R64) -/

theorem toNat_legacyExponent {e : ℕ} (hlow : 894 ≤ e) (hhigh : e ≤ 1148) :
    (BitVec.ofInt 8 ((e : ℤ) - 894)).toNat = e - 894 := by
  have h := toNat_ofInt_of_fits (n := 8) (i := (e : ℤ) - 894) (by omega) (by omega)
  omega

theorem toNat_hostExponent {l : ℕ} (hl : l ≤ 254) :
    (BitVec.ofInt 11 ((l : ℤ) + 894)).toNat = l + 894 := by
  have h := toNat_ofInt_of_fits (n := 11) (i := (l : ℤ) + 894) (by omega) (by omega)
  omega

/-! ## The padding bits (40_data_formats.md R56, R68) -/

/-- Reading a mantissa field back and storing it again clears the three padding bits and nothing
else. -/
theorem storeMantissa_loadMantissa_toNat (f : BitVec 55) :
    (storeMantissa (loadMantissa f)).toNat = f.toNat / 8 * 8 := by
  rw [storeMantissa_toNat, loadMantissa_toNat]

theorem storeMantissa_loadMantissa {f : BitVec 55} (hf : f.toNat % 8 = 0) :
    storeMantissa (loadMantissa f) = f := by
  apply BitVec.eq_of_toNat_eq
  rw [storeMantissa_loadMantissa_toNat]
  omega

theorem and_paddingMask (w : Bits64) :
    w &&& 0xFFFFFFFFFFFFFFF8#64
      = packDouble (doubleL w) (doubleS w) (storeMantissa (loadMantissa (doubleF w))) := by
  have hmask : 0xFFFFFFFFFFFFFFF8#64 = BitVec.allOnes 64 <<< 3 := by decide
  have hw := w.isLt
  apply BitVec.eq_of_toNat_eq
  rw [hmask, ← BitVec.shiftLeft_ushiftRight, BitVec.toNat_shiftLeft, BitVec.toNat_ushiftRight,
    Nat.shiftLeft_eq, Nat.shiftRight_eq_div_pow, packDouble_toNat, storeMantissa_loadMantissa_toNat,
    doubleL_toNat, doubleS_toNat, doubleF_toNat]
  omega

/-! ## The classes of a binary64 by its fields (40_data_formats.md R53) -/

section Classes

variable {x : Bits64}

theorem class64_eq_infinity_iff : class64 x = .infinity ↔ x = inf64 (sign64 x) := by
  rw [eq_comm (a := x), inf64, pack64_inj_iff, class64]
  split_ifs <;> grind

theorem class64_eq_zero_iff : class64 x = .zero ↔ x = hostZero64 (sign64 x) := by
  rw [eq_comm (a := x), hostZero64, pack64_inj_iff, class64]
  split_ifs <;> grind

theorem exp64_of_zero (h : class64 x = .zero) : exp64 x = 0#11 := by
  rw [class64_eq_zero_iff.1 h, hostZero64, exp64_pack64]

theorem exp64_of_subnormal (h : class64 x = .subnormal) : exp64 x = 0#11 := by
  rw [class64] at h
  split_ifs at h
  assumption

end Classes

/-! ## ENCD by the tests of R100 -/

section Encd

variable (p : Params) {x : Bits64}

/-- The flush rule as R100 writes it, one line for each value of the parameter. -/
theorem underflow_eq_true_iff_of_param {l : ℤ} : underflow p l = true ↔
    (p.dblUnderflowAtL0 = true ∧ l ≤ 0) ∨ (p.dblUnderflowAtL0 = false ∧ l < 0) := by
  unfold underflow
  cases p.dblUnderflowAtL0 <;> simp

theorem encdPattern_of_nan (h : class64 x = .nan) : encdPattern p x = nanDouble p :=
  if_pos (class64_eq_nan_iff.1 h)

/-- An infinity saturates as a large finite number does: its exponent field is over the limit
too. -/
theorem encdPattern_of_saturated (h : class64 x ≠ .nan) (he : 1149 ≤ (exp64 x).toNat) :
    encdPattern p x = ovfDouble (sign64 x) := by
  have hl : ((exp64 x).toNat : ℤ) + offDouble > lMax := by unfold offDouble lMax; omega
  exact (if_neg (mt class64_eq_nan_iff.2 h)).trans (if_pos hl)

theorem encdPattern_of_underflow (h : underflow p ((exp64 x).toNat - 894) = true) :
    encdPattern p x = zeroDouble (sign64 x) := by
  have hl := (underflow_eq_true_iff p).1 h
  rw [encdPattern_of_fits p (by omega), if_pos h]

theorem encdPattern_of_stored (h : underflow p ((exp64 x).toNat - 894) ≠ true)
    (he : (exp64 x).toNat ≤ 1148) :
    encdPattern p x = packDouble (BitVec.ofInt 8 ((exp64 x).toNat - 894)) (sign64 x)
      (storeMantissa (mant64 x)) := by
  rw [encdPattern_of_fits p he, if_neg h]

/-- The four tests of R100, each with what it answers. A host zero is among the flushed, and what
is stored has an exponent that the flush rule lets through. -/
theorem encdPattern_cases (x : Bits64) :
    (class64 x = .nan ∧ encdPattern p x = nanDouble p) ∨
    (class64 x ≠ .nan ∧ 1149 ≤ (exp64 x).toNat ∧ encdPattern p x = ovfDouble (sign64 x)) ∨
    (underflow p ((exp64 x).toNat - 894) = true ∧ encdPattern p x = zeroDouble (sign64 x)) ∨
    (underflow p ((exp64 x).toNat - 894) ≠ true ∧ 894 ≤ (exp64 x).toNat ∧
      (exp64 x).toNat ≤ 1148 ∧
      encdPattern p x = packDouble (BitVec.ofInt 8 ((exp64 x).toNat - 894)) (sign64 x)
        (storeMantissa (mant64 x))) := by
  by_cases hnan : class64 x = .nan
  · exact .inl ⟨hnan, encdPattern_of_nan p hnan⟩
  · rcases Nat.lt_or_ge 1148 (exp64 x).toNat with he | he
    · exact .inr (.inl ⟨hnan, he, encdPattern_of_saturated p hnan he⟩)
    · by_cases hflush : underflow p ((exp64 x).toNat - 894) = true
      · exact .inr (.inr (.inl ⟨hflush, encdPattern_of_underflow p hflush⟩))
      · have hlow := mt (underflow_eq_true_iff p).2 hflush
        exact .inr (.inr (.inr ⟨hflush, by omega, he, encdPattern_of_stored p hflush he⟩))

@[simp] theorem encdPattern_inf64 (s : BitVec 1) : encdPattern p (inf64 s) = ovfDouble s := by
  have hinf : class64 (inf64 s) = .infinity := class64_eq_infinity_iff.2 (by simp [inf64])
  rw [encdPattern_of_saturated p (by simp [hinf]) (by simp [inf64]), inf64, sign64_pack64]

@[simp] theorem encdPattern_hostZero64 (s : BitVec 1) :
    encdPattern p (hostZero64 s) = zeroDouble s := by
  rw [encdPattern_of_underflow p ((underflow_eq_true_iff p).2 (.inl (by simp [hostZero64]))),
    hostZero64, sign64_pack64]

/-- Every exponent field that the flush rule lets through is the one ENCD stores for the host number
with the exponent field 894 above it. -/
theorem encdPattern_pack64 {l : BitVec 8} (s : BitVec 1) (m : BitVec 52) (hl : l.toNat ≤ 254)
    (hflush : underflow p l.toNat ≠ true) :
    encdPattern p (pack64 s (BitVec.ofInt 11 (l.toNat + 894)) m)
      = packDouble l s (storeMantissa m) := by
  have hexp : (BitVec.ofInt 11 ((l.toNat : ℤ) + 894)).toNat = l.toNat + 894 := toNat_hostExponent hl
  have hback : ((l.toNat + 894 : ℕ) : ℤ) - 894 = l.toNat := by omega
  rw [encdPattern_of_stored p, exp64_pack64, sign64_pack64, mant64_pack64, hexp, hback,
    BitVec.ofInt_natCast, BitVec.ofNat_toNat, BitVec.setWidth_eq]
  · rwa [exp64_pack64, hexp, hback]
  · rw [exp64_pack64, hexp]
    omega

theorem encdPattern_toNat (x : Bits64) :
    (encdPattern p x).toNat =
      if (exp64 x).toNat = 2047 ∧ (mant64 x).toNat ≠ 0 then
        (0xFF <<< 56) ||| (p.nanSign.toNat <<< 55)
      else if ((exp64 x).toNat : ℤ) - 894 > 254 then
        (0xFF <<< 56) ||| ((sign64 x).toNat <<< 55) ||| 0x7FFFFFFFFFFFFF
      else if ((exp64 x).toNat = 0 ∧ (mant64 x).toNat = 0) ∨
          (p.dblUnderflowAtL0 = true ∧ ((exp64 x).toNat : ℤ) - 894 ≤ 0) ∨
          (p.dblUnderflowAtL0 = false ∧ ((exp64 x).toNat : ℤ) - 894 < 0) then
        (sign64 x).toNat <<< 55
      else ((((exp64 x).toNat : ℤ) - 894).toNat <<< 56) ||| ((sign64 x).toNat <<< 55) |||
        ((mant64 x).toNat <<< 3) := by
  have hnanIff : class64 x = .nan ↔ (exp64 x).toNat = 2047 ∧ (mant64 x).toNat ≠ 0 := by
    rw [class64_eq_nan_iff, ← BitVec.toNat_inj, ne_eq, ← BitVec.toNat_inj]; rfl
  rcases encdPattern_cases p x with
    ⟨hnan, hw⟩ | ⟨hnan, he, hw⟩ | ⟨hflush, hw⟩ | ⟨hflush, hlow, hhigh, hw⟩
  · rw [hw, nanDouble_toNat, if_pos (hnanIff.1 hnan)]
  · rw [hw, ovfDouble_toNat, if_neg (mt hnanIff.2 hnan), if_pos (by omega)]
  · have hl := (underflow_eq_true_iff p).1 hflush
    rw [hw, zeroDouble_toNat, if_neg (by omega), if_neg (by omega),
      if_pos (.inr ((underflow_eq_true_iff_of_param p).1 hflush))]
  · have hzero : ¬ ((exp64 x).toNat = 0 ∧ (mant64 x).toNat = 0) := by omega
    have hl : (exp64 x).toNat - 894 = (((exp64 x).toNat : ℤ) - 894).toNat := by omega
    rw [hw, packDouble_toNat_eq_or, toNat_legacyExponent hlow hhigh, storeMantissa_toNat_eq_shift,
      if_neg (by omega), if_neg (by omega),
      if_neg (not_or.2 ⟨hzero, mt (underflow_eq_true_iff_of_param p).2 hflush⟩), hl]

end Encd

/-! ## DECD by the exponent field -/

section Decd

variable (p : Params) {w : Bits64}

theorem decdPattern_of_nan (hL : doubleL w = 0xFF#8) (hF : doubleF w = 0#55) :
    decdPattern p w = p.hostQnan64 := by
  rw [decdPattern, if_pos hL, if_pos hF]

theorem decdPattern_of_infinity (hL : doubleL w = 0xFF#8) (hF : doubleF w ≠ 0#55) :
    decdPattern p w = inf64 (doubleS w) := by
  rw [decdPattern, if_pos hL, if_neg hF]

theorem decdPattern_of_zero (hL : doubleL w = 0#8) :
    decdPattern p w = hostZero64 (doubleS w) := by
  rw [decdPattern, if_neg (by rw [hL]; decide), if_pos hL]

@[simp] theorem decdPattern_nanDouble : decdPattern p (nanDouble p) = p.hostQnan64 :=
  decdPattern_of_nan p (by simp [nanDouble]) (by simp [nanDouble])

@[simp] theorem decdPattern_ovfDouble (s : BitVec 1) : decdPattern p (ovfDouble s) = inf64 s := by
  rw [decdPattern_of_infinity p (by simp [ovfDouble]) (by simp [ovfDouble]), ovfDouble,
    doubleS_packDouble]

@[simp] theorem decdPattern_zeroDouble (s : BitVec 1) :
    decdPattern p (zeroDouble s) = hostZero64 s := by
  rw [decdPattern_of_zero p (by simp [zeroDouble]), zeroDouble, doubleS_packDouble]

theorem decdPattern_toNat (w : Bits64) :
    (decdPattern p w).toNat =
      if (doubleL w).toNat = 0xFF then
        (if (doubleF w).toNat = 0 then p.hostQnan64.toNat
         else ((doubleS w).toNat <<< 63) ||| (0x7FF <<< 52))
      else if (doubleL w).toNat = 0 then (doubleS w).toNat <<< 63
      else ((doubleS w).toNat <<< 63) ||| (((doubleL w).toNat + 894) <<< 52) |||
        ((doubleF w).toNat >>> 3) := by
  split_ifs with hFF hF h0
  · rw [decdPattern_of_nan p (BitVec.eq_of_toNat_eq hFF) (BitVec.eq_of_toNat_eq hF)]
  · have hF' : doubleF w ≠ 0#55 := fun h => hF (congrArg BitVec.toNat h)
    rw [decdPattern_of_infinity p (BitVec.eq_of_toNat_eq hFF) hF', inf64_toNat]
  · rw [decdPattern_of_zero p (BitVec.eq_of_toNat_eq h0), hostZero64_toNat]
  · have hhigh : (doubleL w).toNat ≤ 254 := by omega
    rw [decdPattern_of_normal p (by omega) hhigh, pack64_toNat_eq_or, toNat_hostExponent hhigh,
      loadMantissa_toNat_eq_shift]

end Decd

/-! ## One after the other (43_double_codec.md R102, R103) -/

section RoundTrip

variable (p : Params) {x w : Bits64}

/-- In the range of the legacy format DECD undoes ENCD. -/
theorem decdPattern_encdPattern (hlow : 895 ≤ (exp64 x).toNat) (hhigh : (exp64 x).toNat ≤ 1148) :
    decdPattern p (encdPattern p x) = x := by
  have hL := toNat_legacyExponent (e := (exp64 x).toNat) (by omega) hhigh
  have hexp : BitVec.ofInt 11 (((exp64 x).toNat - 894 : ℕ) + 894) = exp64 x :=
    BitVec.eq_of_toNat_eq (by rw [toNat_hostExponent (by omega)]; omega)
  rw [encdPattern_of_normal p hlow hhigh,
    decdPattern_of_normal p (by rw [doubleL_packDouble]; omega) (by rw [doubleL_packDouble]; omega),
    doubleL_packDouble, doubleS_packDouble, doubleF_packDouble, hL, hexp,
    loadMantissa_storeMantissa, pack64_fields]

/-- Below that range only the sign comes back: a number that the flush rule lets through is stored
with exponent field 0, which DECD reads as a zero. -/
theorem decdPattern_encdPattern_of_small (he : (exp64 x).toNat ≤ 894) :
    decdPattern p (encdPattern p x) = hostZero64 (sign64 x) := by
  by_cases hflush : underflow p ((exp64 x).toNat - 894) = true
  · rw [encdPattern_of_underflow p hflush, decdPattern_zeroDouble]
  · have hlow := mt (underflow_eq_true_iff p).2 hflush
    have hexp : BitVec.ofInt 8 (((exp64 x).toNat : ℤ) - 894) = 0#8 :=
      BitVec.eq_of_toNat_eq (by rw [toNat_legacyExponent (by omega) (by omega)]; simp [he])
    rw [encdPattern_of_stored p hflush (by omega), hexp,
      decdPattern_of_zero p (doubleL_packDouble ..), doubleS_packDouble]

/-- ENCD undoes DECD on a finite pattern, up to its padding bits. -/
theorem encdPattern_decdPattern (hlow : 1 ≤ (doubleL w).toNat) (hhigh : (doubleL w).toNat ≤ 254) :
    encdPattern p (decdPattern p w)
      = packDouble (doubleL w) (doubleS w) (storeMantissa (loadMantissa (doubleF w))) := by
  rw [decdPattern_of_normal p hlow hhigh, encdPattern_pack64 p _ _ hhigh]
  rw [ne_eq, underflow_eq_true_iff]
  omega

theorem class64_hostQnan64 (hp : p.wf = true) : class64 p.hostQnan64 = .nan := by
  rw [Params.wf, Bool.and_eq_true] at hp
  exact eq_of_beq hp.2

end RoundTrip

/-! ## The responses -/

section Responses

variable (p : Params) (x : Bits64)

theorem encd_bytes : (encd p x).bytes = bytesOf 8 (encdPattern p x).toNat := rfl

theorem decd_eight (d : Data) : decd p 8#4 d = okResponse 8#4 (decdPattern p (low64 d)) :=
  checkLength_of_eq rfl

theorem decd_encd :
    decd p 8#4 (encd p x).outData = okResponse 8#4 (decdPattern p (encdPattern p x)) :=
  decd_eight p _

theorem low64_decd_encd :
    low64 (decd p 8#4 (encd p x).outData).outData = decdPattern p (encdPattern p x) := by
  rw [decd_encd]; rfl

end Responses

end Sys2Proof.Machine

namespace Sys2Proof.Proofs

open Sys2Proof.Machine

/-- Settles O21: ENCD only answers, and the number of its pattern is the chain of R100 over the
fields of the operand. -/
theorem encdAnswersTheLegacyDouble : Obligations.EncdAnswersTheLegacyDouble := by
  intro n d s sgn e m l w
  have hw : (encdPattern s.params d).toNat = w := by
    rw [encdPattern_toNat, sign64_toNat_eq_shift, exp64_toNat_eq_shift, mant64_toNat_eq_mod]
  have hencd : encd s.params d = okResponse 8#4 (BitVec.ofNat 64 w) := by
    rw [encd, ← hw, BitVec.ofNat_toNat, BitVec.setWidth_eq]
  exact congrArg (answer · s) hencd

/-- Settles O22: DECD of eight bytes only answers, and the number of its pattern is the cases of
R101 over the fields of the operand. -/
theorem decdAnswersTheBinary64 : Obligations.DecdAnswersTheBinary64 := by
  intro d s l sgn f x
  have hx : (decdPattern s.params (low64 d)).toNat = x := by
    rw [decdPattern_toNat, doubleL_toNat_eq_shift, doubleS_toNat_eq_shift, doubleF_toNat_eq_mod]
    rfl
  have hdecd : decd s.params 8#4 d = okResponse 8#4 (BitVec.ofNat 64 x) := by
    rw [decd_eight, ← hx, BitVec.ofNat_toNat, BitVec.setWidth_eq]
  exact congrArg (answer · s) hdecd

/-- Settles O40: what is in range comes back, what is above saturates, what is below keeps its sign
alone, zeros among it, and a NaN becomes the canonical pattern. -/
theorem doubleHostRoundTrip : Obligations.DoubleHostRoundTrip := by
  intro p x
  rw [low64_decd_encd]
  refine ⟨?kept, ?saturated, ?flushed, ?nan⟩
  case kept =>
    rintro (hzero | hinf | ⟨-, hlow, hhigh⟩)
    · rw [decdPattern_encdPattern_of_small p (by rw [exp64_of_zero hzero]; decide),
        ← class64_eq_zero_iff.1 hzero]
    · rw [class64_eq_infinity_iff.1 hinf, encdPattern_inf64, decdPattern_ovfDouble]
    · exact decdPattern_encdPattern p hlow hhigh
  case saturated =>
    intro hnormal he
    rw [encdPattern_of_saturated p (by simp [hnormal]) he, decdPattern_ovfDouble]
  case flushed =>
    rintro (hsub | ⟨-, he⟩)
    · exact decdPattern_encdPattern_of_small p (by rw [exp64_of_subnormal hsub]; decide)
    · exact decdPattern_encdPattern_of_small p he
  case nan =>
    intro hnan
    rw [encdPattern_of_nan p hnan, decdPattern_nanDouble]

/-- Settles O41: a saturated number and the infinity of its sign share the overflow pattern; the two
boundary patterns are the last stored one and the first saturated one. -/
theorem doubleSaturationIsLossy : Obligations.DoubleSaturationIsLossy := by
  intro p
  refine ⟨fun x hnan _ he => ?lossy, ?sourceValue, ?lastKept, ?firstSaturated⟩
  case lossy =>
    have hovf := encdPattern_of_saturated p hnan he
    exact ⟨by rw [encd, encd, hovf, encdPattern_inf64],
      by rw [low64_decd_encd, hovf, decdPattern_ovfDouble]⟩
  case sourceValue =>
    rw [encd_bytes, encdPattern_of_saturated p (by decide) (by decide)]
    decide
  case lastKept =>
    rw [encd_bytes, encdPattern_of_normal p (by decide) (by decide)]
    decide
  case firstSaturated =>
    rw [encd, encd, encdPattern_of_saturated p (by decide) (by decide)]
    exact congrArg _ (encdPattern_inf64 p 0#1).symm

/-- Settles O42: the canonical pattern decodes to HOST_QNAN64, which is a NaN for legal
parameters. -/
theorem doubleNaNsBecomeOnePattern : Obligations.DoubleNaNsBecomeOnePattern := by
  intro p x hp hnan
  have hpattern := encdPattern_of_nan p hnan
  rw [low64_decd_encd, hpattern, decdPattern_nanDouble]
  refine ⟨?_, rfl, class64_hostQnan64 p hp⟩
  rw [encd, okResponse_outData, hpattern, nanDouble_toNat]

/-- Settles O43: both literals are host zeros, and a number that underflows has the pattern of the
host zero of its sign. -/
theorem doubleZerosKeepTheirSignAndUnderflowJoinsThem :
    Obligations.DoubleZerosKeepTheirSignAndUnderflowJoinsThem := by
  intro p
  have hpos : 0x0000000000000000#64 = hostZero64 0#1 := by decide
  have hneg : 0x8000000000000000#64 = hostZero64 1#1 := by decide
  rw [hpos, hneg]
  simp only [encd_bytes, decd_encd, encdPattern_hostZero64, decdPattern_zeroDouble]
  refine ⟨by decide, by decide, rfl, rfl, fun x _ hflush => ?joins⟩
  case joins =>
    rw [encd, encd, encdPattern_of_underflow p hflush, encdPattern_hostZero64]

/-- Settles O44: each of the four tests of R100 emits patterns of the list; of the patterns in the
list, the stored ones have the operand with the exponent field 894 above theirs, and the special
ones have theirs by construction. -/
theorem encdEmitsExactlyThesePatterns : Obligations.EncdEmitsExactlyThesePatterns := by
  intro p w
  have hpos : ovfDouble 0#1 = 0xFF7FFFFFFFFFFFFF#64 := by decide
  have hneg : ovfDouble 1#1 = 0xFFFFFFFFFFFFFFFF#64 := by decide
  have hstored (hl : (doubleL w).toNat ≤ 254) (hflush : underflow p (doubleL w).toNat ≠ true)
      (hF : (doubleF w).toNat % 8 = 0) : ∃ x, encdPattern p x = w :=
    ⟨_, by rw [encdPattern_pack64 p (doubleS w) (loadMantissa (doubleF w)) hl hflush,
      storeMantissa_loadMantissa hF, packDouble_fields]⟩
  rw [← nanDouble_toNat, BitVec.toNat_inj, ← hpos, ← hneg]
  constructor
  case mp =>
    rintro ⟨x, rfl⟩
    rcases encdPattern_cases p x with ⟨-, hw⟩ | ⟨-, -, hw⟩ | ⟨-, hw⟩ | ⟨hflush, hlow, hhigh, hw⟩
    · simp [hw]
    · rcases BitVec.eq_zero_or_eq_one (sign64 x) with hs | hs <;> simp [hw, hs]
    · simp [hw, zeroDouble]
    · rw [ne_eq, underflow_eq_true_iff] at hflush
      rw [hw, doubleL_packDouble, doubleF_packDouble, toNat_legacyExponent hlow hhigh,
        storeMantissa_toNat]
      rcases hlow.eq_or_lt with hL0 | hnormal
      · have hp : p.dblUnderflowAtL0 = false := by
          rw [← Bool.not_eq_true]
          exact fun h => hflush (.inr ⟨by omega, h⟩)
        exact .inr (.inl ⟨hp, by omega, by omega⟩)
      · exact .inr (.inr (.inl ⟨by omega, by omega, by omega⟩))
  case mpr =>
    rintro (⟨hL, hF⟩ | ⟨hp, hL, hF⟩ | ⟨hlow, hhigh, hF⟩ | rfl | rfl | rfl)
    · refine ⟨hostZero64 (doubleS w), ?_⟩
      rw [encdPattern_hostZero64, zeroDouble, packDouble_inj_iff]
      exact ⟨(BitVec.eq_of_toNat_eq hL).symm, rfl, (BitVec.eq_of_toNat_eq hF).symm⟩
    · exact hstored (by omega) (by rw [ne_eq, underflow_eq_true_iff, hL, hp]; decide) hF
    · exact hstored hhigh (by rw [ne_eq, underflow_eq_true_iff]; omega) hF
    · exact ⟨0x7FF8000000000000#64, encdPattern_of_nan p (by decide)⟩
    · exact ⟨inf64 0#1, encdPattern_inf64 p 0#1⟩
    · exact ⟨inf64 1#1, encdPattern_inf64 p 1#1⟩

/-- Settles O45: what DECD makes of a pattern is a special host number, whose encoding is known, or
a normal number that ENCD takes back to the pattern with its padding bits cleared. -/
theorem doubleLegacyRoundTrip : Obligations.DoubleLegacyRoundTrip := by
  intro p w hp
  split_ifs with hFF hF h0
  · rw [decdPattern_of_nan p hFF hF, encdPattern_of_nan p (class64_hostQnan64 p hp)]
  · rw [decdPattern_of_infinity p hFF hF, encdPattern_inf64]
  · rw [decdPattern_of_zero p h0, encdPattern_hostZero64]
  · rw [encdPattern_decdPattern p (by bv_omega) (by bv_omega), and_paddingMask]

end Sys2Proof.Proofs
end

section
/-!
SUPPORT. The errors (60_exceptions.md R120 to R126): the response of a decode at another length than
its own, the status of every response of the operation map, and that a failed request leaves the
machine able to answer the next one as if it had not been made.
-/

namespace Sys2Proof.Machine

/-! ## The length check (60_exceptions.md R121) -/

theorem decs_of_ne {inLen : Len} (h : inLen ≠ 4#4) (p : Params) (d : Data) :
    decs p inLen d = raise .lengthError :=
  checkLength_of_ne h

theorem decd_of_ne {inLen : Len} (h : inLen ≠ 8#4) (p : Params) (d : Data) :
    decd p inLen d = raise .lengthError :=
  checkLength_of_ne h

theorem checkLength_status (width inLen n : Len) (v : Data) :
    (checkLength width inLen (okResponse n v)).status
      = if inLen ≠ width then .lengthError else .ok := by
  by_cases h : inLen = width
  · rw [checkLength_of_eq h, okResponse_status, if_neg (not_not_intro h)]
  · rw [checkLength_of_ne h, raise_status, if_pos h, ErrorKind.status]

theorem deci_status (inLen : Len) (d : Data) :
    (deci inLen d).status = if inLen ≠ 2#4 then .lengthError else .ok :=
  checkLength_status 2#4 inLen _ _

theorem decs_status (p : Params) (inLen : Len) (d : Data) :
    (decs p inLen d).status = if inLen ≠ 4#4 then .lengthError else .ok :=
  checkLength_status 4#4 inLen _ _

theorem decd_status (p : Params) (inLen : Len) (d : Data) :
    (decd p inLen d).status = if inLen ≠ 8#4 then .lengthError else .ok :=
  checkLength_status 8#4 inLen _ _

/-! ## The order of the tests (60_exceptions.md R124) -/

/-- An encode has no test, a decode only that of its length, a reserved select only that of the
select. -/
theorem respond_packReq_status (p : Params) (op : BitVec 3) (inLen : Len) (inData : Data) :
    (respond p (packReq op inLen inData)).status =
      if op = 3#3 ∨ op = 7#3 then .illegalOp
      else if (op = 4#3 ∧ inLen ≠ 2#4) ∨ (op = 5#3 ∧ inLen ≠ 4#4) ∨ (op = 6#3 ∧ inLen ≠ 8#4) then
        .lengthError
      else .ok := by
  rw [respond, reqOp_packReq, reqInLen_packReq, reqInData_packReq]
  rcases op_cases op with rfl | rfl | rfl | rfl | rfl | rfl | rfl | rfl
  · rfl
  · rfl
  · rfl
  · rfl
  · simp [deci_status]
  · simp [decs_status]
  · simp [decd_status]
  · rfl

end Sys2Proof.Machine

namespace Sys2Proof.Proofs

open Sys2Proof.Machine

/-- Settles O24: each decode answers its length check, which raises. -/
theorem wrongLengthAnswersLengthError : Obligations.WrongLengthAnswersLengthError := by
  intro inLen inData s
  refine ⟨?deci, ?decs, ?decd⟩
  case deci => exact fun h => congrArg (answer · s) (deci_of_ne h inData)
  case decs => exact fun h => congrArg (answer · s) (decs_of_ne h s.params inData)
  case decd => exact fun h => congrArg (answer · s) (decd_of_ne h s.params inData)

/-- Settles O25: the response added is that of the operation map. -/
theorem statusFollowsTheOrderOfTests : Obligations.StatusFollowsTheOrderOfTests :=
  fun s op inLen inData _ h =>
    ⟨respond s.params (packReq op inLen inData), step_cons h,
      respond_packReq_status s.params op inLen inData⟩

/-- Settles O11: both runs answer each of their requests by the operation map, and the failed
request changes neither the parameters nor the request after it. -/
theorem failedRequestLeavesNoTrace : Obligations.FailedRequestLeavesNoTrace := by
  intro s t bad w rest hs ht hparams hbad
  have hrunS := runsTo_of_append (ws := [bad, w]) (rest := rest) hs
  have hrunT := runsTo_of_append (ws := [w]) (rest := rest) ht
  have hsame : outcome t.params [w] = [respond s.params w] := by
    rw [hparams, outcome_cons, outcome_nil]
  exact ⟨respond s.params bad, respond s.params w, _, _, hbad, hrunS, rfl, hrunT,
    congrArg (t.responses ++ ·) hsame, hparams⟩

end Sys2Proof.Proofs
end

section
/-!
SUPPORT. Reset, the end of a run and the generic routine (70_reset_and_hazards.md R140, R147, R148):
the parameters at reset, the run past the last request, and the two instantiations of the generic
routine with their constants in place.
-/

namespace Sys2Proof.Machine

/-! ## Reset and the end of a run -/

/-- The default quiet NaNs of 00_scope.md R8 are NaNs. -/
theorem wf_defaults : Params.defaults.wf = true := by decide

theorem step_nil {s : State} (h : s.requests = []) : step s = .fault .noRequest := by
  unfold step; rw [fetch_nil h]

theorem runsTo_take (s : State) {n : ℕ} (hn : n ≤ s.requests.length) :
    runsTo n s { s with
      requests := s.requests.drop n
      responses := s.responses ++ outcome s.params (s.requests.take n) } := by
  have hrun := runsTo_of_append (List.take_append_drop n s.requests).symm
  rwa [List.length_take_of_le hn] at hrun

/-- Every request is answered, so the stop is the one step past the last of them. -/
theorem run_of_requests_lt {s : State} {n : ℕ} (hn : s.requests.length < n) :
    Host.Core.run Sys2Proof.core n s = .fault .noRequest := by
  induction n generalizing s with
  | zero => exact absurd hn (Nat.not_lt_zero _)
  | succ n ih =>
    cases hs : s.requests with
    | nil => exact run_succ_of_fault (step_nil hs) n
    | cons w rest =>
      rw [hs, List.length_cons] at hn
      exact (run_succ_of_next (step_cons hs) n).trans (ih (Nat.lt_of_succ_lt_succ hn))

/-! ## The constants of the two instantiations (40_data_formats.md R60) -/

theorem offset_single : Format.single.offset = 2 := rfl
theorem flushes_single : Format.single.flushes = false := rfl
theorem expBits_single : Format.single.expBits = 8 := rfl

theorem offset_double : Format.double.offset = -894 := rfl
theorem flushes_double : Format.double.flushes = true := rfl
theorem expBits_double : Format.double.expBits = 11 := rfl

/-! ## The single instantiation (42_single_codec.md R80, R81) -/

section Single

variable (p : Params) (x : Bits32)

/-- The fields the generic routine cuts out of a number are those of the binary32 and of the legacy
single. -/
theorem fields_single :
    x.toNat >>> (8 * Format.single.width - 1) = (sign32 x).toNat ∧
      x.toNat >>> Format.single.mantBits % 2 ^ Format.single.expBits = (exp32 x).toNat ∧
      x.toNat % 2 ^ Format.single.mantBits = (mant32 x).toNat ∧
      x.toNat >>> Format.single.expPos = (singleL x).toNat ∧
      x.toNat >>> Format.single.fieldBits % 2 = (singleS x).toNat ∧
      x.toNat % 2 ^ Format.single.fieldBits = (singleM x).toNat :=
  ⟨(sign32_toNat_eq_shift x).symm, (exp32_toNat_eq_shift x).symm, (mant32_toNat_eq_mod x).symm,
    (singleL_toNat_eq_shift x).symm, (singleS_toNat_eq_shift x).symm,
    (singleM_toNat_eq_mod x).symm⟩

/-- The single never flushes, and its shifted exponent is never negative (R110). -/
theorem encode_single : Format.single.encode p x.toNat = (encsPattern p x).toNat := by
  obtain ⟨hs, he, hm, -, -, -⟩ := fields_single x
  have hsat : ((exp32 x).toNat : ℤ) + 2 > 254 ↔ (exp32 x).toNat + 2 > 254 := by omega
  have hl : (((exp32 x).toNat : ℤ) + 2).toNat = (exp32 x).toNat + 2 := by omega
  rw [encsPattern_toNat, Format.encode, hs, he, hm, offset_single, flushes_single, hl]
  refine if_congr Iff.rfl rfl (if_congr hsat rfl (if_congr ?zero rfl rfl))
  case zero => simp

/-- The host exponent is negative at a legacy exponent of 1 alone, where both sides follow the
policy of 40_data_formats.md R67. -/
theorem decode_single :
    Format.single.decode p p.hostQnan32.toNat x.toNat = (decsPattern p x).toNat := by
  obtain ⟨-, -, -, hL, hS, hM⟩ := fields_single x
  rw [decsPattern_toNat, Format.decode, hL, hS, hM, offset_single]
  refine if_congr Iff.rfl rfl (ite_congr rfl (fun _ => rfl) fun h0 => ?finite)
  case finite =>
    by_cases h1 : (singleL x).toNat = 1
    · rw [h1, if_pos rfl]
      cases p.sglDecL1 <;> rfl
    · have hnonneg : ¬ ((singleL x).toNat : ℤ) - 2 < 0 := by omega
      have hexp : (((singleL x).toNat : ℤ) - 2) % 2 ^ 8 = ((singleL x).toNat - 2 : ℕ) := by omega
      rw [if_neg h1, if_neg (hnonneg ·.1), expBits_single, hexp]
      rfl

end Single

/-! ## The double instantiation (43_double_codec.md R100, R101) -/

section Double

variable (p : Params) (x : Bits64)

/-- The fields the generic routine cuts out of a number are those of the binary64 and of the legacy
double. -/
theorem fields_double :
    x.toNat >>> (8 * Format.double.width - 1) = (sign64 x).toNat ∧
      x.toNat >>> Format.double.mantBits % 2 ^ Format.double.expBits = (exp64 x).toNat ∧
      x.toNat % 2 ^ Format.double.mantBits = (mant64 x).toNat ∧
      x.toNat >>> Format.double.expPos = (doubleL x).toNat ∧
      x.toNat >>> Format.double.fieldBits % 2 = (doubleS x).toNat ∧
      x.toNat % 2 ^ Format.double.fieldBits = (doubleF x).toNat :=
  ⟨(sign64_toNat_eq_shift x).symm, (exp64_toNat_eq_shift x).symm, (mant64_toNat_eq_mod x).symm,
    (doubleL_toNat_eq_shift x).symm, (doubleS_toNat_eq_shift x).symm,
    (doubleF_toNat_eq_mod x).symm⟩

theorem encode_double : Format.double.encode p x.toNat = (encdPattern p x).toNat := by
  obtain ⟨hs, he, hm, -, -, -⟩ := fields_double x
  rw [encdPattern_toNat, Format.encode, hs, he, hm, offset_double, flushes_double]
  refine if_congr Iff.rfl rfl (if_congr Iff.rfl rfl (if_congr (or_congr_right ?flush) rfl rfl))
  case flush => cases p.dblUnderflowAtL0 <;> simp

/-- The host exponent is at least 894, so the policy of the single format is never asked. -/
theorem decode_double :
    Format.double.decode p p.hostQnan64.toNat x.toNat = (decdPattern p x).toNat := by
  obtain ⟨-, -, -, hL, hS, hF⟩ := fields_double x
  have hnonneg : ¬ ((doubleL x).toNat : ℤ) - -894 < 0 := by omega
  rw [decdPattern_toNat, Format.decode, hL, hS, hF, offset_double, expBits_double]
  refine ite_congr rfl (fun _ => rfl) fun hFF => if_congr Iff.rfl rfl ?finite
  case finite =>
    have hexp : (((doubleL x).toNat : ℤ) - -894) % 2 ^ 11 = ((doubleL x).toNat + 894 : ℕ) := by
      omega
    rw [if_neg (hnonneg ·.1), hexp]
    rfl

end Double

end Sys2Proof.Machine

namespace Sys2Proof.Proofs

open Sys2Proof.Machine

/-- Settles O49: each instantiation, on the fields it cuts out, is its codec's pattern as a number,
the flush of the double and the exponent field 1 of the single included. -/
theorem genericRoutineEqualsTheCodecs : Obligations.GenericRoutineEqualsTheCodecs := fun p a b =>
  ⟨(encode_single p a).symm, (decode_single p a).symm, (encode_double p b).symm,
    (decode_double p b).symm⟩

/-- Settles O8: the run of the first `n` requests, the rest left standing. -/
theorem runAnswersEveryRequestInOrder : Obligations.RunAnswersEveryRequestInOrder :=
  fun s _ hn => runsTo_take s hn

/-- Settles O9: by induction on the number of steps past the end, and by the completed run before
it. -/
theorem runStopsOnlyPastTheLastRequest : Obligations.RunStopsOnlyPastTheLastRequest :=
  fun s _ => ⟨run_of_requests_lt, fun hn => ⟨_, runsTo_take s hn⟩⟩

/-- Settles O1: the default parameters are legal, and no response stands at reset. -/
theorem resetSatisfiesTheInvariant : Obligations.ResetSatisfiesTheInvariant :=
  inv_iff.2 ⟨wf_defaults, by simp⟩

end Sys2Proof.Proofs
end
